-- ==== Sys2Proof/Word.lean ====
section
/-! DEFINITION. The word types of SGPSEQ (00_scope.md R7, R8: every value is an unsigned bit vector). -/

namespace Sys2Proof

/-- One byte on the wire (R9). -/
abbrev Byte := BitVec 8

/-- A data word: "a 16-bit unsigned value" (R7). -/
abbrev Half := BitVec 16

/-- A host register value: 32 bits (R7). -/
abbrev Word := BitVec 32

/-- The 7-bit target address (R7, R21). -/
abbrev Addr := BitVec 7

end Sys2Proof
end

