-- ==== Sys2Proof/Syntax.lean ====
section
/-! DEFINITION. What drives SGPSEQ: the instructions of spec/opcode_table.json (one constructor a row), the
host registers, the host accesses, and the events that fire one at a time (42_engine.md R91). -/

namespace Sys2Proof

/-- The forms of the CRC unit's operation (R65): the host accesses to CRC_DATA and CRC_CHECK. Only the bits the
registers keep are operands (R24, R25); the reserved and read-only bits of the written word are none. -/
inductive CrcOp where
  /-- `WR CRC_DATA, w` -/
  | writeData (w : Half)
  /-- `WR CRC_CHECK, e` -/
  | writeCheck (e : Byte)
  /-- `RD CRC_DATA` -/
  | readData
  /-- `RD CRC_CHECK` -/
  | readCheck
  deriving DecidableEq, Repr, Inhabited

/-- The rows of spec/opcode_table.json. A command has "no register operands and no immediates" (R47). -/
inductive Instr where
  | init
  | measureIaq
  | getBaseline
  | setBaseline
  | setAbsHumidity
  | selfTest
  | getFeatureSet
  | getTvocInceptiveBaseline
  | setTvocBaseline
  | getSerialId
  | illegalA
  | illegalB
  | illegalC
  | illegalD
  | illegalE
  | illegalF
  | crcUnit (op : CrcOp)
  deriving DecidableEq, Repr, Inhabited

/-- The mapped host registers (R15). -/
inductive Reg where
  | ctrl
  | cmd
  | status
  | addr
  | payload0
  | payload1
  | result0
  | result1
  | result2
  | crcData
  | crcCheck
  | waitMs (c : Fin 10)
  | desc (c : Fin 10)
  deriving DecidableEq, Repr, Inhabited

/-- The two operations of the host port (R31); `kind ∈ {W, R}` of R56. -/
inductive AccessKind where
  | read
  | write
  deriving DecidableEq, Repr, Inhabited

/-- One host access as the host issues it, legal or not: R32 speaks of its width in bits and of its byte offset,
which may lie outside the window. A read carries data 0 (R56). -/
structure HostAccess where
  kind : AccessKind
  width : Nat
  off : Nat
  data : Word
  deriving DecidableEq, Repr, Inhabited

/-- The target's answer to a BusWrite (R37, R39). -/
inductive WriteAnswer where
  | ok
  | fail
  deriving DecidableEq, Repr, Inhabited

/-- The target's answer to a BusRead (R37, R39): any number of bytes of any values, or FAIL. -/
inductive ReadAnswer where
  | ok (bytes : List Byte)
  | fail
  deriving DecidableEq, Repr, Inhabited

/-- The events of R91, one of which fires in each step. -/
inductive Event where
  /-- the host agent issues a RegRead or RegWrite (R31) -/
  | host (a : HostAccess)
  /-- the bus target answers the outstanding BusWrite (R39) -/
  | busWriteAnswer (a : WriteAnswer)
  /-- the bus target answers the outstanding BusRead (R39) -/
  | busReadAnswer (a : ReadAnswer)
  /-- one strobe of the tick input (R103) -/
  | tick
  /-- the engine's own CHECK step, which needs no input (R87) -/
  | internal
  /-- the reset input `rst` (R108) -/
  | reset
  deriving DecidableEq, Repr, Inhabited

/-- The host-program statements of R55. `poll` and `delay` are host-side loops (R56). -/
inductive HostStmt where
  | wr (off : Nat) (imm : Word)
  | rd (off : Nat)
  | poll (off : Nat) (mask val : Word)
  | delay (n : Nat)
  deriving DecidableEq, Repr, Inhabited

/-- The pseudo-instructions of R57. -/
inductive Pseudo where
  | exec (c : Word)
  | ack
  | clrOvr
  | crc (w : Word)
  | setWait (c : Fin 10) (ms : Word)
  deriving DecidableEq, Repr, Inhabited

end Sys2Proof
end

