-- ==== Sys2Proof/WellFormed.lean ====
section
/-! DEFINITION. When a host access is legal (20_memory.md R32) and when an instruction is well formed. -/

namespace Sys2Proof

/-- "it is exactly 32 bits wide" (R32). -/
def HostAccess.widthOk (a : HostAccess) : Bool := a.width == 32

/-- "`off mod 4 = 0`" (R32). -/
def HostAccess.alignedOk (a : HostAccess) : Bool := a.off % 4 == 0

/-- "`off` is a mapped offset of 10_state.md rule R15": 0x00..0x28, 0x40..0x64 and 0x80..0xA4 (of the aligned
offsets; R15 lists the unmapped ranges between and after them). -/
def HostAccess.mappedOk (a : HostAccess) : Bool :=
  a.off ≤ 0x28 || (0x40 ≤ a.off && a.off ≤ 0x64) || (0x80 ≤ a.off && a.off ≤ 0xA4)

/-- A host access that satisfies the three conditions of R32. -/
def HostAccess.wellFormed (a : HostAccess) : Bool := a.widthOk && a.alignedOk && a.mappedOk

/-- Every instruction is well formed: the commands have no operands (R47), and the CRC unit's operands are exactly
the bits its registers keep (R24, R25), a bound their types carry. -/
def Instr.wellFormed : Instr → Bool
  | .init => true
  | .measureIaq => true
  | .getBaseline => true
  | .setBaseline => true
  | .setAbsHumidity => true
  | .selfTest => true
  | .getFeatureSet => true
  | .getTvocInceptiveBaseline => true
  | .setTvocBaseline => true
  | .getSerialId => true
  | .illegalA => true
  | .illegalB => true
  | .illegalC => true
  | .illegalD => true
  | .illegalE => true
  | .illegalF => true
  | .crcUnit _ => true

end Sys2Proof
end

