-- ==== Sys2Proof/Decode.lean ====
section
/-! DEFINITION. Decoding a host access into an instruction (30_encoding.md R47 to R49, R56; 40_crc.md R65), total and
rejecting by name; then the encoder. -/

namespace Sys2Proof

/-- The byte offset of a register (R15). -/
def Reg.offset : Reg → Nat
  | .ctrl => 0x00
  | .cmd => 0x04
  | .status => 0x08
  | .addr => 0x0C
  | .payload0 => 0x10
  | .payload1 => 0x14
  | .result0 => 0x18
  | .result1 => 0x1C
  | .result2 => 0x20
  | .crcData => 0x24
  | .crcCheck => 0x28
  | .waitMs c => 0x40 + 4 * c.val
  | .desc c => 0x80 + 4 * c.val

/-- The 31 mapped registers (R15, R30). -/
def Reg.all : List Reg :=
  [.ctrl, .cmd, .status, .addr, .payload0, .payload1, .result0, .result1, .result2, .crcData, .crcCheck]
    ++ (List.finRange 10).map .waitMs ++ (List.finRange 10).map .desc

/-- The register at a byte offset (R15); none at an unmapped offset. -/
def Reg.ofOffset (off : Nat) : Option Reg := Reg.all.find? fun r => r.offset == off

/-- Why a host access is no instruction of the table. -/
inductive Reject where
  /-- not 32 bits wide (R32) -/
  | badWidth
  /-- `off mod 4 ≠ 0` (R32) -/
  | misaligned
  /-- an unmapped offset (R15, R32) -/
  | unmapped
  /-- a legal access to a register that starts nothing: "a register access with no engine effect" (R91) -/
  | plainRegister (r : Reg)
  deriving DecidableEq, Repr

/-- The command a CMD index selects (R48, R49). -/
def commandOf (c : BitVec 4) : Instr :=
  match c.toNat with
  | 0x0 => .init
  | 0x1 => .measureIaq
  | 0x2 => .getBaseline
  | 0x3 => .setBaseline
  | 0x4 => .setAbsHumidity
  | 0x5 => .selfTest
  | 0x6 => .getFeatureSet
  | 0x7 => .getTvocInceptiveBaseline
  | 0x8 => .setTvocBaseline
  | 0x9 => .getSerialId
  | 0xA => .illegalA
  | 0xB => .illegalB
  | 0xC => .illegalC
  | 0xD => .illegalD
  | 0xE => .illegalE
  | _ => .illegalF

/-- `CMD[3:0]` of a word written to CMD; bits 31:4 do not affect decoding (R47). -/
def cmdField (v : Word) : BitVec 4 := v.extractLsb' 0 4

/-- `WORD[15:0]` of a word written to a 16-bit register (R22, R24, R26). -/
def halfField (v : Word) : Half := v.extractLsb' 0 16

/-- `EXPECT[7:0]` of a word written to CRC_CHECK (R25). -/
def expectField (v : Word) : Byte := v.extractLsb' 0 8

/-- The instruction that a legal access of kind `k` to register `r` is (R47, R65); a register access with no engine
effect is none (R91). -/
def decodeReg (r : Reg) (k : AccessKind) (v : Word) : Except Reject Instr :=
  match r, k with
  | .cmd, .write => .ok (commandOf (cmdField v))
  | .crcData, .write => .ok (.crcUnit (.writeData (halfField v)))
  | .crcData, .read => .ok (.crcUnit .readData)
  | .crcCheck, .write => .ok (.crcUnit (.writeCheck (expectField v)))
  | .crcCheck, .read => .ok (.crcUnit .readCheck)
  | r, _ => .error (.plainRegister r)

/-- The decoder: the instruction a host access is, or why it is none. -/
def decode (a : HostAccess) : Except Reject Instr :=
  if a.width ≠ 32 then .error .badWidth
  else if a.off % 4 ≠ 0 then .error .misaligned
  else match Reg.ofOffset a.off with
    | none => .error .unmapped
    | some r => decodeReg r a.kind a.data

/-- A 32-bit RegRead of a register (R31). -/
def HostAccess.rd (r : Reg) : HostAccess := ⟨.read, 32, r.offset, 0#32⟩

/-- A 32-bit RegWrite to a register (R31). -/
def HostAccess.wr (r : Reg) (v : Word) : HostAccess := ⟨.write, 32, r.offset, v⟩

/-- The encoder, with the reserved bits of every written word zero (R47, R48, R56, R65). -/
def encode : Instr → HostAccess
  | .init => .wr .cmd 0x0#32
  | .measureIaq => .wr .cmd 0x1#32
  | .getBaseline => .wr .cmd 0x2#32
  | .setBaseline => .wr .cmd 0x3#32
  | .setAbsHumidity => .wr .cmd 0x4#32
  | .selfTest => .wr .cmd 0x5#32
  | .getFeatureSet => .wr .cmd 0x6#32
  | .getTvocInceptiveBaseline => .wr .cmd 0x7#32
  | .setTvocBaseline => .wr .cmd 0x8#32
  | .getSerialId => .wr .cmd 0x9#32
  | .illegalA => .wr .cmd 0xA#32
  | .illegalB => .wr .cmd 0xB#32
  | .illegalC => .wr .cmd 0xC#32
  | .illegalD => .wr .cmd 0xD#32
  | .illegalE => .wr .cmd 0xE#32
  | .illegalF => .wr .cmd 0xF#32
  | .crcUnit (.writeData w) => .wr .crcData (w.setWidth 32)
  | .crcUnit (.writeCheck e) => .wr .crcCheck (e.setWidth 32)
  | .crcUnit .readData => .rd .crcData
  | .crcUnit .readCheck => .rd .crcCheck

/-- The host access that a table word stands for. Up to 32 bits the word is the one format the spec numbers: the data
of a RegWrite to CMD (R47). The CRC unit's row has no command index, so a longer word is the whole triple of R56, laid
out as data in bits 31:0, off in bits 39:32 and kind (1 = W) in bit 40. DESIGN CHOICE (safe): log entry 8. -/
def HostAccess.ofTableWord (nbits w : Nat) : HostAccess :=
  if nbits ≤ 32 then .wr .cmd (BitVec.ofNat 32 w)
  else ⟨if w.testBit 40 then .write else .read, 32, w / 2 ^ 32 % 256, BitVec.ofNat 32 w⟩

/-- The triple `(kind, off, data)` of R56 as one number, in the layout of `HostAccess.ofTableWord`. -/
def HostAccess.toTableWord (a : HostAccess) : Nat :=
  (match a.kind with | .write => 2 ^ 40 | .read => 0) + a.off * 2 ^ 32 + a.data.toNat

/-- The instruction the decoder reads from a table word (the host's question). -/
def decodeTableWord (nbits w : Nat) : Option Instr :=
  match decode (HostAccess.ofTableWord nbits w) with
  | .ok i => some i
  | .error _ => none

end Sys2Proof
end

