-- ==== Sys2Proof/Config.lean ====
section
/-! DEFINITION. What the spec leaves open (00_scope.md R6; 92_eei_decisions.md, "Open parameters, collected"): each
is a constant with no body, so a theorem of this model holds for every value of it. -/

namespace Sys2Proof

/-- `P_OPCODE[c]`, the byte sent first (R6, D11: OPEN). Log entry 1. -/
opaque Config.opcode0 : Fin 10 → Byte

/-- `P_OPCODE[c]`, the byte sent second (R6, D11: OPEN). Log entry 1. -/
opaque Config.opcode1 : Fin 10 → Byte

/-- `P_DEFAULT_ADDR`, the reset value of ADDR.TADDR (R6, D12: OPEN). Log entry 2. -/
opaque Config.defaultAddr : Addr

/-- By how many nanoseconds `P_TICK_PERIOD` exceeds its least value, 1 ms (R6, D10: OPEN). Log entry 3. -/
opaque Config.tickSlackNs : Nat

/-- One millisecond in the unit of `Config.tickPeriodNs`. -/
def Config.nsPerMs : Nat := 1000000

/-- `P_TICK_PERIOD` in nanoseconds, "at least 1 ms" (R6, R103). Log entry 3. -/
def Config.tickPeriodNs : Nat := Config.nsPerMs + Config.tickSlackNs

/-- The free environment: the events that the unconstrained interleaving of the host, the bus target, the tick source
and the scheduler fires in its round `k`, before the one event that closes the round (R39, U5, U13: `any value`). Any
number of any events, none included. Log entry 4. -/
opaque Config.freeBurst : Nat → List Event

end Sys2Proof
end

