-- ==== Sys2Proof/Machine/Table.lean ====
section
/-! DEFINITION. The fixed command table (41_commands.md R66): lengths per command and the reset settle times. -/

namespace Sys2Proof.Machine

/-- The constant lengths of a command: payload words and reply words (R27, R66). -/
structure Descriptor where
  npay : Fin 3
  nreply : Fin 4
  deriving DecidableEq, Repr

/-- The command table (R66; the "3 CRC-validated words" of the source is wrong, 90_conflicts.md C2). -/
def descriptor (c : Fin 10) : Descriptor :=
  match c.val with
  | 0 => ⟨0, 0⟩  -- Init
  | 1 => ⟨0, 2⟩  -- MeasureIAQ
  | 2 => ⟨0, 2⟩  -- GetBaseline
  | 3 => ⟨2, 0⟩  -- SetBaseline
  | 4 => ⟨1, 0⟩  -- SetAbsoluteHumidity
  | 5 => ⟨0, 1⟩  -- SelfTest
  | 6 => ⟨0, 1⟩  -- GetFeatureSet
  | 7 => ⟨0, 1⟩  -- GetTvocInceptiveBaseline
  | 8 => ⟨1, 0⟩  -- SetTvocBaseline
  | _ => ⟨0, 3⟩  -- GetSerialId

/-- The reset values of WAIT_MS0..9 (R26; the larger end of each range, 90_conflicts.md C5). -/
def resetWaitMs : Vector Half 10 :=
  #v[10#16, 12#16, 120#16, 10#16, 10#16, 520#16, 10#16, 10#16, 10#16, 10#16]

end Sys2Proof.Machine
end

