-- ==== Sys2Proof/Machine/State.lean ====
section
/-! DEFINITION. The state of one SGPSEQ instance (10_state.md R12): the host-visible register file, the engine's hidden
state (R28), the outstanding bus transaction, and the model's own environment fields. The line `irq` holds no state of
its own (Flags.lean), DESC0..9 are constants (R27; Ops.lean), and CRC_CHECK.VALUE and MATCH are functions (R25). -/

namespace Sys2Proof.Machine

/-- `s.phase`, shown in STATUS.PHASE as 0..4; "values 5–7 never occur" (R19, R28). -/
inductive Phase where
  | idle
  | write
  | wait
  | read
  | check
  deriving DecidableEq, Repr

/-- STATUS.ERR: 0 NONE, 1 IO_ERROR, 2 PROTOCOL_ERROR, 3 ILLEGAL_CMD (R19, R92). -/
inductive ErrKind where
  | none
  | io
  | protocol
  | illegal
  deriving DecidableEq, Repr

/-- The stored fields of STATUS (R19), all but PHASE, which is a view of `State.phase` (log entry 10). -/
structure Status where
  busy : Bool
  done : Bool
  err : ErrKind
  resValid : Bool
  resCount : Fin 4
  ioRd : Bool
  crcFail : BitVec 3
  ovr : Bool
  deriving DecidableEq, Repr

/-- The hidden fields that the start step copies (R28, R81). After reset the spec leaves them unspecified, "unread while
IDLE". -/
structure Snapshot where
  /-- `s.cmd` -/
  cmd : BitVec 4
  /-- `s.op`, the byte sent first -/
  op0 : Byte
  /-- `s.op`, the byte sent second -/
  op1 : Byte
  /-- `s.nreply`, 0..3 -/
  nreply : Fin 4
  /-- `s.npay`, 0..2 -/
  npay : Fin 3
  /-- `s.wait` -/
  wait : Half
  /-- `s.taddr` -/
  taddr : Addr
  /-- `s.pay0` -/
  pay0 : Half
  /-- `s.pay1` -/
  pay1 : Half
  deriving DecidableEq, Repr

/-- An outstanding transaction on the bus port (R37): issued, and not yet answered. -/
inductive BusTxn where
  | write (addr : Addr) (bytes : List Byte)
  | read (addr : Addr) (n : Nat)
  deriving DecidableEq, Repr

/-- The model's own fields, no state of the hardware: what the other agents do next, and what the host last read. -/
structure Env where
  /-- the events placed to fire next, in the order of their interleaving (log entry 4) -/
  inputs : List Event
  /-- how many rounds the free environment has begun (log entry 4) -/
  drawn : Nat
  /-- the value the latest RegRead returned to the host (R31; log entry 7) -/
  readData : Option Word
  deriving DecidableEq, Repr

/-- The state of one SGPSEQ instance (R12). -/
structure State where
  /-- CTRL.IE (R17) -/
  ie : Bool
  /-- CMD.CMD (R18) -/
  cmd : BitVec 4
  /-- STATUS (R19) -/
  status : Status
  /-- ADDR.TADDR (R21) -/
  taddr : Addr
  /-- PAYLOAD0.WORD (R22) -/
  payload0 : Half
  /-- PAYLOAD1.WORD (R22) -/
  payload1 : Half
  /-- RESULT0.WORD (R23) -/
  result0 : Half
  /-- RESULT1.WORD (R23) -/
  result1 : Half
  /-- RESULT2.WORD (R23) -/
  result2 : Half
  /-- CRC_DATA.WORD (R24) -/
  crcData : Half
  /-- CRC_CHECK.EXPECT (R25) -/
  crcExpect : Byte
  /-- WAIT_MS0..9.MS (R26) -/
  waitMs : Vector Half 10
  /-- `s.phase` and STATUS.PHASE (R28) -/
  phase : Phase
  /-- the snapshot (R28) -/
  snap : Snapshot
  /-- `s.cnt`, the ticks counted in WAIT (R28) -/
  cnt : BitVec 17
  /-- `s.rx`, the reply bytes received (R28) -/
  rx : List Byte
  /-- the outstanding bus transaction, if any (R28, R38) -/
  bus : Option BusTxn
  /-- the environment (the model's own) -/
  env : Env
  deriving DecidableEq, Repr

/-- Why the machine stops with a fault. -/
inductive Fault where
  /-- `HostBusError(off)` (R95): raised by the host port (HostPort.lean) on an access that breaks R32: not 32 bits wide,
  not 4-byte aligned, or at an unmapped offset. The spec says a model treats it as a fault, kept for the whole run. Safe. -/
  | hostBusError (off : Nat)
  deriving DecidableEq, Repr

/-- Why the model gives an instruction no meaning. -/
inductive Refusal where
  /-- Raised by the dispatch on an instruction the model has not reached yet; no arm raises it now. Safe. -/
  | notModelled (mnemonic : String)
  deriving DecidableEq, Repr

/-- STATUS after reset: 0x00000000 (R108). -/
def Status.reset : Status := ⟨false, false, .none, false, 0, false, 0#3, false⟩

/-- The snapshot after reset. DESIGN CHOICE (unsafe): the spec leaves these fields unspecified; the model names zero.
Log entry 6. -/
def Snapshot.reset : Snapshot := ⟨0#4, 0#8, 0#8, 0, 0, 0#16, 0#7, 0#16, 0#16⟩

/-- No event placed, no free round begun, nothing read. DESIGN CHOICE (safe): log entries 4 and 7. -/
def Env.reset : Env := ⟨[], 0, none⟩

/-- The machine right after reset (R108, and the reset columns of R17 to R28). -/
def State.reset : State where
  ie := false
  cmd := 0#4
  status := Status.reset
  taddr := Config.defaultAddr
  payload0 := 0#16
  payload1 := 0#16
  result0 := 0#16
  result1 := 0#16
  result2 := 0#16
  crcData := 0#16
  crcExpect := 0#8
  waitMs := resetWaitMs
  phase := .idle
  snap := Snapshot.reset
  cnt := 0#17
  rx := []
  bus := none
  env := Env.reset

end Sys2Proof.Machine
end

