-- ==== Sys2Proof/Machine/Flags.lean ====
section
/-! DEFINITION. Every computation on the STATUS fields (10_state.md R19, R20), and the interrupt line
(60_exceptions.md R100). -/

namespace Sys2Proof.Machine

/-- STATUS.PHASE (R19). -/
def Phase.code : Phase → BitVec 3
  | .idle => 0#3
  | .write => 1#3
  | .wait => 2#3
  | .read => 3#3
  | .check => 4#3

/-- STATUS.ERR (R19, R92). -/
def ErrKind.code : ErrKind → BitVec 2
  | .none => 0#2
  | .io => 1#2
  | .protocol => 2#2
  | .illegal => 3#2

/-- STATUS as the host reads it (R19). -/
def statusWord (st : Status) (ph : Phase) : Word :=
  0#17 ++ ph.code ++ BitVec.ofBool st.ovr ++ st.crcFail ++ BitVec.ofBool st.ioRd ++ BitVec.ofNat 2 st.resCount.val
    ++ BitVec.ofBool st.resValid ++ st.err.code ++ BitVec.ofBool st.done ++ BitVec.ofBool st.busy

/-- The completion record cleared by an accepted start; "STATUS.OVR is kept", BUSY is not yet set (R80). -/
def Status.cleared (st : Status) : Status :=
  { st with done := false, err := .none, resValid := false, resCount := 0, ioRd := false, crcFail := 0#3 }

/-- BUSY set by the start of a legal command (R80). -/
def Status.started (st : Status) : Status := { st with busy := true }

/-- The sticky overrun bit (R83). -/
def Status.overrun (st : Status) : Status := { st with ovr := true }

/-- The W1C effect of a write of `v` to STATUS: bit 1 clears DONE, bit 11 clears OVR, nothing else changes (R19). -/
def Status.w1c (st : Status) (v : Word) : Status :=
  { st with done := st.done && !v.getLsbD 1, ovr := st.ovr && !v.getLsbD 11 }

/-- The STATUS side of `complete(err, io_rd, crc_fail, words)` with `n = len(words)` (R88, R89). -/
def Status.completed (st : Status) (err : ErrKind) (ioRd : Bool) (crcFail : BitVec 3) (n : Fin 4) : Status where
  busy := false
  done := true
  err := err
  resValid := if err = .none then true else st.resValid
  resCount := if err = .none then n else st.resCount
  ioRd := ioRd
  crcFail := crcFail
  ovr := st.ovr

/-- `irq = CTRL.IE & STATUS.DONE` (R100). -/
def irq (s : State) : Bool := s.ie && s.status.done

end Sys2Proof.Machine
end

