-- ==== Sys2Proof/Machine/Operands.lean ====
section
/-! DEFINITION. The CRC-8 function and the operations built on it (40_crc.md), the wire frames (30_encoding.md R51, R52)
and the snapshot that holds a command's operands (42_engine.md R81). -/

namespace Sys2Proof.Machine

/-- One of the 8 steps of R58, on the working copy `b` and the register `reg`. -/
def crcBit (b reg : Byte) : Byte × Byte :=
  (b <<< 1, if (b ^^^ reg) &&& 0x80#8 ≠ 0#8 then (reg <<< 1) ^^^ 0x31#8 else reg <<< 1)

/-- `n` steps of R58 on one byte; the register at the end. -/
def crcBits : Nat → Byte → Byte → Byte
  | 0, _, reg => reg
  | n + 1, b, reg => crcBits n (crcBit b reg).1 (crcBit b reg).2

/-- The register after one whole byte (R58: "repeat 8 times"). -/
def crcByte (reg b : Byte) : Byte := crcBits 8 b reg

/-- `crc8` (R58): the register starts at 0xFF, the bytes are taken in order, and the final register is the checksum. -/
def crc8 (bytes : List Byte) : Byte := bytes.foldl crcByte 0xFF#8

/-- One of the 8 steps of the form of R60, on the register alone. -/
def crcStepAlt (reg : Byte) : Byte :=
  if reg &&& 0x80#8 ≠ 0#8 then (reg <<< 1) ^^^ 0x31#8 else reg <<< 1

/-- `n` steps of the form of R60. -/
def crcStepsAlt : Nat → Byte → Byte
  | 0, reg => reg
  | n + 1, reg => crcStepsAlt n (crcStepAlt reg)

/-- The equivalent formulation of R60. -/
def crc8Alt (bytes : List Byte) : Byte :=
  bytes.foldl (fun reg b => crcStepsAlt 8 (reg ^^^ b)) 0xFF#8

/-- The MSB of a 16-bit word, `w[15:8]` (R9). -/
def msb (w : Half) : Byte := w.extractLsb' 8 8

/-- The LSB of a 16-bit word, `w[7:0]` (R9). -/
def lsb (w : Half) : Byte := w.extractLsb' 0 8

/-- The CRC of a word: `crc8([w[15:8], w[7:0]])` (R62, R65). -/
def crcWord (w : Half) : Byte := crc8 [msb w, lsb w]

/-- Three consecutive bytes `[MSB, LSB, CRC]` (R53). -/
structure Group where
  g0 : Byte
  g1 : Byte
  g2 : Byte
  deriving DecidableEq, Repr

/-- The bytes of a group in wire order (R41). -/
def Group.bytes (g : Group) : List Byte := [g.g0, g.g1, g.g2]

/-- `enc(w)` (R62). -/
def enc (w : Half) : Group := ⟨msb w, lsb w, crcWord w⟩

/-- `grp_ok(g)` (R63). -/
def grpOk (g : Group) : Bool := crc8 [g.g0, g.g1] == g.g2

/-- `dec(g) = g[0] ‖ g[1]`, big-endian (R63). -/
def dec (g : Group) : Half := g.g0 ++ g.g1

/-- Group `k` of a reply, `[r[3k], r[3k+1], r[3k+2]]` (R52). A byte that is not there reads as 0, which happens in no
state a run reaches (log entry 17). -/
def groupAt (r : List Byte) (k : Nat) : Group :=
  ⟨r.getD (3 * k) 0#8, r.getD (3 * k + 1) 0#8, r.getD (3 * k + 2) 0#8⟩

/-- Whether reply group `k` is one of the `n` groups and fails its CRC (R87). -/
def groupFails (r : List Byte) (n k : Nat) : Bool := decide (k < n) && !grpOk (groupAt r k)

/-- The mask of the failing groups among the first `n` (R87): "Every group is checked, even after one has failed". -/
def crcFailMask (r : List Byte) (n : Nat) : BitVec 3 :=
  BitVec.ofBool (groupFails r n 2) ++ BitVec.ofBool (groupFails r n 1) ++ BitVec.ofBool (groupFails r n 0)

/-- The decoded words of the first `n` groups, in arrival order (R41, R87). -/
def replyWords (r : List Byte) (n : Nat) : List Half := (List.range n).map fun k => dec (groupAt r k)

/-- `snapshot(c)` (R81): what the engine reads from the start of a command on. -/
def takeSnapshot (c : Fin 10) (s : State) : Snapshot where
  cmd := BitVec.ofNat 4 c.val
  op0 := Config.opcode0 c
  op1 := Config.opcode1 c
  nreply := (descriptor c).nreply
  npay := (descriptor c).npay
  wait := s.waitMs.get c
  taddr := s.taddr
  pay0 := s.payload0
  pay1 := s.payload1

/-- The write frame `tx(c)` of a snapshot (R51). -/
def txFrame (sn : Snapshot) : List Byte :=
  [sn.op0, sn.op1]
    ++ (if 1 ≤ sn.npay.val then (enc sn.pay0).bytes else [])
    ++ (if sn.npay.val = 2 then (enc sn.pay1).bytes else [])

/-- The number of bytes of the read frame, `3·NREPLY` (R50, R52). -/
def rxLength (sn : Snapshot) : Nat := 3 * sn.nreply.val

end Sys2Proof.Machine
end

