-- ==== Sys2Proof/Machine/Ops.lean ====
section
/-! DEFINITION. The named operations over the registers: one update per field group, completion (SGPSEQ's trap entry,
60_exceptions.md R98) and acknowledgement (its return, R99), starting a command, RegRead and RegWrite, and reset. -/

namespace Sys2Proof.Machine

def State.setIe (s : State) (v : Bool) : State := { s with ie := v }
def State.setCmd (s : State) (v : BitVec 4) : State := { s with cmd := v }
def State.setStatus (s : State) (v : Status) : State := { s with status := v }
def State.setTaddr (s : State) (v : Addr) : State := { s with taddr := v }
def State.setPayload0 (s : State) (v : Half) : State := { s with payload0 := v }
def State.setPayload1 (s : State) (v : Half) : State := { s with payload1 := v }
def State.setResults (s : State) (r0 r1 r2 : Half) : State :=
  { s with result0 := r0, result1 := r1, result2 := r2 }
def State.setCrcData (s : State) (v : Half) : State := { s with crcData := v }
def State.setCrcExpect (s : State) (v : Byte) : State := { s with crcExpect := v }
def State.setWaitMs (s : State) (c : Fin 10) (v : Half) : State := { s with waitMs := s.waitMs.set c v }
def State.setPhase (s : State) (v : Phase) : State := { s with phase := v }
def State.setSnap (s : State) (v : Snapshot) : State := { s with snap := v }
def State.setCnt (s : State) (v : BitVec 17) : State := { s with cnt := v }
def State.setRx (s : State) (v : List Byte) : State := { s with rx := v }
def State.setBus (s : State) (v : Option BusTxn) : State := { s with bus := v }
def State.setEnv (s : State) (v : Env) : State := { s with env := v }

/-- The host port's answer to a RegRead (R31); no register changes (R34). -/
def State.setReadData (s : State) (v : Word) : State := s.setEnv { s.env with readData := some v }

/-- The RESULT side of `commit(words)` (R88): RESULTk takes word `k` for `k < len(words)`, the others are left. -/
def State.commitWords (s : State) (words : List Half) : State :=
  s.setResults (words.getD 0 s.result0) (words.getD 1 s.result1) (words.getD 2 s.result2)

/-- `complete(err, io_rd, crc_fail, words)`, one atomic step (R89): SGPSEQ's trap entry (R98). -/
def complete (err : ErrKind) (ioRd : Bool) (crcFail : BitVec 3) (words : List Half) (s : State) : State :=
  let s1 := s.setStatus (s.status.completed err ioRd crcFail (Fin.ofNat 4 words.length))
  let s2 := if err = .none then s1.commitWords words else s1
  s2.setPhase .idle

/-- The return of R99: W1C of DONE (bit 1) and OVR (bit 11), the whole effect of a write of `v` to STATUS (R19). -/
def acknowledge (v : Word) (s : State) : State := s.setStatus (s.status.w1c v)

/-- What every accepted CMD write does first (R80): CMD.CMD, the completion record and RESULT0..2. -/
def acceptCommand (c : BitVec 4) (s : State) : State :=
  ((s.setCmd c).setStatus s.status.cleared).setResults 0#16 0#16 0#16

/-- The rest of the start of a legal command `c` (R80, R81): the snapshot, and the BusWrite issued. -/
def launch (c : Fin 10) (s : State) : State :=
  let sn := takeSnapshot c s
  (((((s.setSnap sn).setCnt 0#17).setRx []).setPhase .write).setStatus s.status.started).setBus
    (some (.write sn.taddr (txFrame sn)))

/-- `start(c)` (R80, R82). -/
def startCommand (c : BitVec 4) (s : State) : State :=
  if h : c.toNat < 10 then launch ⟨c.toNat, h⟩ (acceptCommand c s)
  else complete .illegal false 0#3 [] (acceptCommand c s)

/-- A RegWrite to CMD of index `c`: accepted while BUSY = 0 (R80), else ignored with OVR set (R83). -/
def commandWrite (c : BitVec 4) (s : State) : State :=
  if s.status.busy then s.setStatus s.status.overrun else startCommand c s

/-- The constant value of DESCc (R27). -/
def descWord (c : Fin 10) : Word :=
  0#12 ++ BitVec.ofNat 2 (descriptor c).npay.val ++ BitVec.ofNat 2 (descriptor c).nreply.val ++ Config.opcode0 c
    ++ Config.opcode1 c

/-- CRC_CHECK as the host reads it: `zext_32(MATCH ‖ VALUE ‖ EXPECT)` (R25, R65). -/
def crcCheckWord (s : State) : Word :=
  (BitVec.ofBool (crcWord s.crcData == s.crcExpect) ++ crcWord s.crcData ++ s.crcExpect).setWidth 32

/-- `RegRead(off)` at a mapped register (R31): the register's value, with reserved bits 0. -/
def regRead (r : Reg) (s : State) : Word :=
  match r with
  | .ctrl => (BitVec.ofBool s.ie).setWidth 32
  | .cmd => s.cmd.setWidth 32
  | .status => statusWord s.status s.phase
  | .addr => s.taddr.setWidth 32
  | .payload0 => s.payload0.setWidth 32
  | .payload1 => s.payload1.setWidth 32
  | .result0 => s.result0.setWidth 32
  | .result1 => s.result1.setWidth 32
  | .result2 => s.result2.setWidth 32
  | .crcData => s.crcData.setWidth 32
  | .crcCheck => crcCheckWord s
  | .waitMs c => (s.waitMs.get c).setWidth 32
  | .desc c => descWord c

/-- `RegWrite(off, v32)` at a mapped register (R31): the write effect 10_state.md gives for it. A write to a read-only
register changes nothing (R16). -/
def regWrite (r : Reg) (v : Word) (s : State) : State :=
  match r with
  | .ctrl => s.setIe (v.getLsbD 0)
  | .cmd => commandWrite (cmdField v) s
  | .status => acknowledge v s
  | .addr => s.setTaddr (v.extractLsb' 0 7)
  | .payload0 => s.setPayload0 (halfField v)
  | .payload1 => s.setPayload1 (halfField v)
  | .result0 => s
  | .result1 => s
  | .result2 => s
  | .crcData => s.setCrcData (halfField v)
  | .crcCheck => s.setCrcExpect (expectField v)
  | .waitMs c => s.setWaitMs c (halfField v)
  | .desc _ => s

/-- A RegRead step: the value goes to the host, and nothing else happens (R31, R34). -/
def readRegister (r : Reg) (s : State) : State := s.setReadData (regRead r s)

/-- A reset step (R108): every field at its reset value, the outstanding bus transaction cancelled (R109). The
environment is no part of SGPSEQ and stays (log entry 22). -/
def resetStep (s : State) : State := State.reset.setEnv s.env

end Sys2Proof.Machine
end

