-- ==== Sys2Proof/Machine/Engine.lean ====
section
/-! DEFINITION. The engine's transitions out of WRITE, WAIT, READ and CHECK (42_engine.md R84 to R87). -/

namespace Sys2Proof.Machine

/-- `write_resp(answer)` (R84). The answered transaction is no longer outstanding. -/
def writeResp (a : WriteAnswer) (s : State) : State :=
  let s1 := s.setBus none
  match a with
  | .fail => complete .io false 0#3 [] s1
  | .ok =>
    if s.snap.nreply = 0 then complete .none false 0#3 [] s1
    else (s1.setPhase .wait).setCnt 0#17

/-- `wait_tick()` (R85). The comparison is of numbers: `s.wait + 1` may be 65536. -/
def waitTick (s : State) : State :=
  let s1 := s.setCnt (s.cnt + 1#17)
  if s1.cnt.toNat ≥ s.snap.wait.toNat + 1 then
    (s1.setPhase .read).setBus (some (.read s.snap.taddr (rxLength s.snap)))
  else s1

/-- `read_resp(answer)` (R86); an `OK` of the wrong length is as `FAIL` (R40). -/
def readResp (a : ReadAnswer) (s : State) : State :=
  let s1 := s.setBus none
  match a with
  | .fail => complete .io true 0#3 [] s1
  | .ok bytes =>
    if bytes.length ≠ rxLength s.snap then complete .io true 0#3 [] s1
    else (s1.setRx bytes).setPhase .check

/-- `check()` (R87): all-or-nothing. -/
def checkStep (s : State) : State :=
  let n := s.snap.nreply.val
  let mask := crcFailMask s.rx n
  if mask ≠ 0#3 then complete .protocol false mask [] s
  else complete .none false 0#3 (replyWords s.rx n) s

end Sys2Proof.Machine
end

