-- ==== Sys2Proof/Machine/CrcUnit.lean ====
section
/-! DEFINITION. The host-visible CRC unit (40_crc.md R65). -/

namespace Sys2Proof.Machine

/-- CRC_UNIT (R65): a write stores the input word or the expected byte, a read returns CRC_DATA or
`zext_32(MATCH ‖ VALUE ‖ EXPECT)`. The engine, STATUS, RESULTk and `irq` are not touched. -/
def execCrcUnit (op : CrcOp) (s : State) : Host.Outcome State Fault Refusal :=
  match op with
  | .writeData w => .next (s.setCrcData w)
  | .writeCheck e => .next (s.setCrcExpect e)
  | .readData => .next (readRegister .crcData s)
  | .readCheck => .next (readRegister .crcCheck s)

end Sys2Proof.Machine
end

