-- ==== Sys2Proof/Machine/IllegalCommands.lean ====
section
/-! DEFINITION. The illegal indices 0xA to 0xF (30_encoding.md R49; 42_engine.md R82): accepted, and completed at once
with ILLEGAL_CMD. -/

namespace Sys2Proof.Machine

/-- ILLEGAL_A (R82). -/
def execIllegalA (s : State) : Host.Outcome State Fault Refusal := .next (commandWrite 0xA#4 s)

/-- ILLEGAL_B (R82). -/
def execIllegalB (s : State) : Host.Outcome State Fault Refusal := .next (commandWrite 0xB#4 s)

/-- ILLEGAL_C (R82). -/
def execIllegalC (s : State) : Host.Outcome State Fault Refusal := .next (commandWrite 0xC#4 s)

/-- ILLEGAL_D (R82). -/
def execIllegalD (s : State) : Host.Outcome State Fault Refusal := .next (commandWrite 0xD#4 s)

/-- ILLEGAL_E (R82). -/
def execIllegalE (s : State) : Host.Outcome State Fault Refusal := .next (commandWrite 0xE#4 s)

/-- ILLEGAL_F (R82). -/
def execIllegalF (s : State) : Host.Outcome State Fault Refusal := .next (commandWrite 0xF#4 s)

end Sys2Proof.Machine
end

