-- ==== Sys2Proof/Machine/ReadCommands.lean ====
section
/-! DEFINITION. The read commands (41_commands.md section 3). An instruction is the host write of its index to CMD; the
engine then runs the transaction in the steps of Engine.lean, between which the other agents act (R91). -/

namespace Sys2Proof.Machine

/-- MEASURE_IAQ (R73). -/
def execMeasureIaq (s : State) : Host.Outcome State Fault Refusal := .next (commandWrite 0x1#4 s)

/-- GET_BASELINE (R74). -/
def execGetBaseline (s : State) : Host.Outcome State Fault Refusal := .next (commandWrite 0x2#4 s)

/-- SELF_TEST (R75). -/
def execSelfTest (s : State) : Host.Outcome State Fault Refusal := .next (commandWrite 0x5#4 s)

/-- GET_FEATURE_SET (R76). -/
def execGetFeatureSet (s : State) : Host.Outcome State Fault Refusal := .next (commandWrite 0x6#4 s)

/-- GET_TVOC_INCEPTIVE_BASELINE (R77). -/
def execGetTvocInceptiveBaseline (s : State) : Host.Outcome State Fault Refusal := .next (commandWrite 0x7#4 s)

/-- GET_SERIAL_ID (R78). -/
def execGetSerialId (s : State) : Host.Outcome State Fault Refusal := .next (commandWrite 0x9#4 s)

end Sys2Proof.Machine
end

