-- ==== Sys2Proof/Machine/WriteCommands.lean ====
section
/-! DEFINITION. The write-only commands (41_commands.md section 2). An instruction is the host write of its index to
CMD; the engine then runs the transaction in the steps of Engine.lean, between which the other agents act (R91). -/

namespace Sys2Proof.Machine

/-- INIT (R69). -/
def execInit (s : State) : Host.Outcome State Fault Refusal := .next (commandWrite 0x0#4 s)

/-- SET_BASELINE (R70). -/
def execSetBaseline (s : State) : Host.Outcome State Fault Refusal := .next (commandWrite 0x3#4 s)

/-- SET_ABS_HUMIDITY (R71). -/
def execSetAbsHumidity (s : State) : Host.Outcome State Fault Refusal := .next (commandWrite 0x4#4 s)

/-- SET_TVOC_BASELINE (R72). -/
def execSetTvocBaseline (s : State) : Host.Outcome State Fault Refusal := .next (commandWrite 0x8#4 s)

end Sys2Proof.Machine
end

