-- ==== Sys2Proof/Machine/Dispatch.lean ====
section
/-! DEFINITION. The dispatch: one arm per row of spec/opcode_table.json. -/

namespace Sys2Proof.Machine

def exec (i : Instr) (s : State) : Host.Outcome State Fault Refusal :=
  match i with
  | .init => Sys2Proof.Machine.execInit s
  | .measureIaq => Sys2Proof.Machine.execMeasureIaq s
  | .getBaseline => Sys2Proof.Machine.execGetBaseline s
  | .setBaseline => Sys2Proof.Machine.execSetBaseline s
  | .setAbsHumidity => Sys2Proof.Machine.execSetAbsHumidity s
  | .selfTest => Sys2Proof.Machine.execSelfTest s
  | .getFeatureSet => Sys2Proof.Machine.execGetFeatureSet s
  | .getTvocInceptiveBaseline => Sys2Proof.Machine.execGetTvocInceptiveBaseline s
  | .setTvocBaseline => Sys2Proof.Machine.execSetTvocBaseline s
  | .getSerialId => Sys2Proof.Machine.execGetSerialId s
  | .illegalA => Sys2Proof.Machine.execIllegalA s
  | .illegalB => Sys2Proof.Machine.execIllegalB s
  | .illegalC => Sys2Proof.Machine.execIllegalC s
  | .illegalD => Sys2Proof.Machine.execIllegalD s
  | .illegalE => Sys2Proof.Machine.execIllegalE s
  | .illegalF => Sys2Proof.Machine.execIllegalF s
  | .crcUnit op => Sys2Proof.Machine.execCrcUnit op s

end Sys2Proof.Machine
end

