-- ==== Sys2Proof/Machine/HostPort.lean ====
section
/-! DEFINITION. The host port (20_memory.md R31, R32): a legal access runs the instruction it decodes to, or is a plain
register access; any other access is HostBusError. -/

namespace Sys2Proof.Machine

/-- One host access, atomic with respect to every other step (R35). -/
def hostAccess (a : HostAccess) (s : State) : Host.Outcome State Fault Refusal :=
  match decode a with
  | .ok i => exec i s
  | .error (.plainRegister r) =>
    match a.kind with
    | .read => .next (readRegister r s)
    | .write => .next (regWrite r a.data s)
  | .error .badWidth => .fault (.hostBusError a.off)
  | .error .misaligned => .fault (.hostBusError a.off)
  | .error .unmapped => .fault (.hostBusError a.off)

/-- The host access fetched as the next instruction for a table word (withFetchWord of Step.lean). -/
def fetchEvent (nbits w : Nat) : Event := .host (HostAccess.ofTableWord nbits w)

end Sys2Proof.Machine
end

