-- ==== Sys2Proof/Machine/Events.lean ====
section
/-! DEFINITION. Which event fires next, and what an event does (42_engine.md R91). -/

namespace Sys2Proof.Machine

/-- The event that closes round `k` of the free environment: a tick or CHECK's own step, in turn. So ticks come for ever
and CHECK's step is taken in time, as R103 and R91 assume; neither does anything where it is not enabled. Log entry 19. -/
def closingEvent (k : Nat) : Event := if k % 2 = 0 then .tick else .internal

/-- The event that fires next: the first one placed, else the first one of the next free round (log entry 4). -/
def nextEvent (env : Env) : Event :=
  match env.inputs with
  | e :: _ => e
  | [] =>
    match Config.freeBurst env.drawn with
    | e :: _ => e
    | [] => closingEvent env.drawn

/-- The environment once `nextEvent` has fired: the rest of a round just begun is placed. -/
def Env.advance (env : Env) : Env :=
  match env.inputs with
  | _ :: rest => { env with inputs := rest }
  | [] =>
    match Config.freeBurst env.drawn with
    | _ :: rest => { env with inputs := rest ++ [closingEvent env.drawn], drawn := env.drawn + 1 }
    | [] => { env with drawn := env.drawn + 1 }

/-- The event that fires in step `n` from now, if the steps before it go on. -/
def Env.eventAt (env : Env) : Nat → Event
  | 0 => nextEvent env
  | n + 1 => Env.eventAt env.advance n

/-- The state once its next event has been taken from the environment. -/
def takeEvent (s : State) : State := s.setEnv s.env.advance

/-- Firing one event (R91). An answer with no transaction outstanding is never delivered to the engine (R109, D21), a
tick outside WAIT is discarded (R103), and CHECK's own step exists only in CHECK: none of them changes anything
(log entry 5). -/
def fire (e : Event) (s : State) : Host.Outcome State Fault Refusal :=
  match e with
  | .host a => hostAccess a s
  | .busWriteAnswer a => .next (if s.phase = .write then writeResp a s else s)
  | .tick => .next (if s.phase = .wait then waitTick s else s)
  | .busReadAnswer a => .next (if s.phase = .read then readResp a s else s)
  | .internal => .next (if s.phase = .check then checkStep s else s)
  | .reset => .next (resetStep s)

/-- The state with the events `es` placed to fire next, before any already placed. -/
def State.place (s : State) (es : List Event) : State := s.setEnv { s.env with inputs := es ++ s.env.inputs }

end Sys2Proof.Machine
end

