-- ==== Sys2Proof/Machine/Step.lean ====
section
/-! DEFINITION. One step (00_scope.md R11; 42_engine.md R91: "exactly one event fires per step"), and how the host's
questions place an instruction. -/

namespace Sys2Proof.Machine

/-- One step: the next event is taken from the environment and fires. -/
def step (s : State) : Host.Outcome State Fault Refusal := fire (nextEvent s.env) (takeEvent s)

/-- `s` with the host access of a table word placed as the next event, so that the next step runs it. -/
def State.withFetchWord (s : State) (nbits w : Nat) : State := s.place [fetchEvent nbits w]

end Sys2Proof.Machine
end

