-- ==== Sys2Proof/Safety.lean ====
section
/-! DEFINITION. The terms claims are stated in: the invariant of every step, runs over placed events, and what a host
must respect for a safe run (70_reset_and_hazards.md section 3). -/

namespace Sys2Proof.Machine

/-- RESULTk (R23). -/
def State.result (s : State) (k : Nat) : Half :=
  match k with
  | 0 => s.result0
  | 1 => s.result1
  | 2 => s.result2
  | _ => 0#16

/-- The six invariants of STATUS that R19 lists. -/
structure StatusInv (s : State) : Prop where
  busy_iff_phase : s.status.busy = true ↔ s.phase ≠ .idle
  busy_not_done : s.status.busy = true → s.status.done = false
  resValid_err : s.status.resValid = true → s.status.err = .none
  err_noResult : s.status.err ≠ .none → s.status.resValid = false ∧ s.status.resCount = 0
  crcFail_err : s.status.crcFail ≠ 0#3 → s.status.err = .protocol
  ioRd_err : s.status.ioRd = true → s.status.err = .io

/-- "There is exactly one outstanding bus transaction when `s.phase` ∈ {WRITE, READ}, and none otherwise" (R28), and it
is the one the engine issued from its snapshot (R80, R85). -/
def BusInv (s : State) : Prop :=
  s.bus = match s.phase with
    | .idle => none
    | .write => some (.write s.snap.taddr (txFrame s.snap))
    | .wait => none
    | .read => some (.read s.snap.taddr (rxLength s.snap))
    | .check => none

/-- While a command is in progress the snapshot is that of the command named by CMD.CMD (R81, R83). -/
def SnapshotInv (s : State) : Prop :=
  s.phase ≠ .idle → ∃ c : Fin 10,
    s.cmd = BitVec.ofNat 4 c.val ∧ s.snap.cmd = s.cmd
      ∧ s.snap.op0 = Config.opcode0 c ∧ s.snap.op1 = Config.opcode1 c
      ∧ s.snap.nreply = (descriptor c).nreply ∧ s.snap.npay = (descriptor c).npay

/-- The wait, the reply length and the reply bytes, phase by phase (R79, R84 to R86, and the widths of R28). -/
structure ReplyInv (s : State) : Prop where
  wait_cnt : s.phase = .wait → s.cnt.toNat ≤ s.snap.wait.toNat
  reply_expected : s.phase = .wait ∨ s.phase = .read ∨ s.phase = .check → s.snap.nreply ≠ 0
  check_length : s.phase = .check → s.rx.length = rxLength s.snap
  rx_length : s.rx.length ≤ 9

/-- The completion record (R80, R88, R89, R92, R94): clear while a command is in progress, and afterwards that of the
command named by CMD.CMD (R98). RESULTk is 0 unless it holds a delivered word. -/
structure RecordInv (s : State) : Prop where
  busy_clear : s.status.busy = true →
    s.status.err = .none ∧ s.status.resValid = false ∧ s.status.crcFail = 0#3 ∧ s.status.ioRd = false
  invalid_count : s.status.resValid = false → s.status.resCount = 0
  result_zero : ∀ k, s.status.resCount.val ≤ k → s.result k = 0#16
  illegal_iff : s.status.err = .illegal ↔ 10 ≤ s.cmd.toNat
  done_ok_valid : s.status.done = true → s.status.err = .none → s.status.resValid = true
  count_nreply : s.status.resValid = true →
    ∀ c : Fin 10, s.cmd = BitVec.ofNat 4 c.val → s.status.resCount = (descriptor c).nreply
  protocol_mask : s.status.err = .protocol → s.status.crcFail ≠ 0#3
  mask_bits : ∀ c : Fin 10, s.cmd = BitVec.ofNat 4 c.val →
    ∀ k, (descriptor c).nreply.val ≤ k → s.status.crcFail.getLsbD k = false

/-- The invariant every step keeps. -/
structure Inv (s : State) : Prop where
  status : StatusInv s
  bus : BusInv s
  snapshot : SnapshotInv s
  reply : ReplyInv s
  record : RecordInv s

/-- Firing the events `es` in order from `s`, one step each, leads to `t`. -/
def RunsTo (s : State) (es : List Event) (t : State) : Prop :=
  Host.Core.run Sys2Proof.core es.length (s.place es) = .next t

/-- Whether an event is a legal host access of kind `k` to register `r`. -/
def accesses (e : Event) (k : AccessKind) (r : Reg) : Bool :=
  match e with
  | .host a => a.kind == k && a.width == 32 && a.off == r.offset
  | .busWriteAnswer _ => false
  | .busReadAnswer _ => false
  | .tick => false
  | .internal => false
  | .reset => false

/-- The word a host write carries (0 for every other event). -/
def writtenWord (e : Event) : Word :=
  match e with
  | .host a => a.data
  | .busWriteAnswer _ => 0#32
  | .busReadAnswer _ => 0#32
  | .tick => 0#32
  | .internal => 0#32
  | .reset => 0#32

/-- "The host must not write CMD while BUSY = 1" (R115). -/
def commandWriteSafe (s : State) : Prop := s.status.busy = false

/-- "The host must read RESULTk only after DONE = 1, RES_VALID = 1 and k < RES_COUNT" (R116). -/
def resultReadSafe (s : State) (k : Nat) : Prop :=
  s.status.done = true ∧ s.status.resValid = true ∧ k < s.status.resCount.val

/-- No settle time stands below its reset value: the premise R113 asks of a claim about reply values. -/
def waitsConservative (s : State) : Prop :=
  ∀ c : Fin 10, (resetWaitMs.get c).toNat ≤ (s.waitMs.get c).toNat

/-- One gap R112 asks for: the ticks the host must still let pass before it writes CMD for `target`. -/
structure Gap where
  ticks : Nat
  target : Addr
  deriving DecidableEq, Repr

/-- A tick shortens a gap. -/
def Gap.tick (g : Gap) : Gap := { g with ticks := g.ticks - 1 }

/-- Whether the step from `s` to `t` completes a write-only command with ERR = 0, the completions R112 speaks of. -/
def opensGap (s t : State) : Bool :=
  s.status.busy && !t.status.busy && t.status.done && decide (t.status.err = .none) && decide (s.snap.nreply = 0)

/-- The gap such a completion opens: the command's own WAIT_MS entry as its start copied it, for its target. A write to
WAIT_MSc while BUSY = 1 "applies from the next start" (R81, R117), so it changes no gap of the command in progress.
`n + 1` ticks span at least `n` whole periods (R85; log entry 21). -/
def gapOpened (s : State) : Gap := ⟨s.snap.wait.toNat + 1, s.snap.taddr⟩

/-- The gaps pending after the event `e` from `s` to `t`. Each is kept for its own target, whatever completes for another
(R112: "for the same target"). -/
def gapsAfter (q : List Gap) (e : Event) (s t : State) : List Gap :=
  (if opensGap s t then [gapOpened s] else []) ++ if e = .tick then q.map Gap.tick else q

/-- What R112, R115 and R116 ask of one event. -/
def eventSafe (q : List Gap) (e : Event) (s : State) : Prop :=
  (accesses e .write .cmd = true → commandWriteSafe s ∧ ∀ g ∈ q, g.target = s.taddr → g.ticks = 0)
    ∧ (accesses e .read .result0 = true → resultReadSafe s 0)
    ∧ (accesses e .read .result1 = true → resultReadSafe s 1)
    ∧ (accesses e .read .result2 = true → resultReadSafe s 2)

/-- A safe run over the events `es`: no HostBusError, every hazard of R112, R115 and R116 respected, and no settle time
below its minimum when a command starts (R113). -/
def safeRun (q : List Gap) : List Event → State → Prop
  | [], _ => True
  | e :: es, s =>
    eventSafe q e s ∧ (accesses e .write .cmd = true → waitsConservative s)
      ∧ match fire e s with
        | .next t => safeRun (gapsAfter q e s t) es t
        | .fault _ => False
        | .refused _ => False

end Sys2Proof.Machine
end

