-- ==== Sys2Proof/Certificates/Slice0/Obligations.lean ====
section
/-! DEFINITION. The statements about SGPSEQ for the provers, and the tables of the spec they are written with. -/

open Sys2Proof Sys2Proof.Machine

namespace Sys2Proof.Claims

/-! ### What the statements are written with: the spec's tables, written out again -/

/-- The snapshot of a start of command `c` with the lengths of R66 (R81). -/
def snapshotOf (s : State) (c : Fin 10) (nreply : Fin 4) (npay : Fin 3) : Snapshot where
  cmd := BitVec.ofNat 4 c.val
  op0 := Config.opcode0 c
  op1 := Config.opcode1 c
  nreply := nreply
  npay := npay
  wait := s.waitMs.get c
  taddr := s.taddr
  pay0 := s.payload0
  pay1 := s.payload1

/-- The opcode bytes of command `c` on the wire, with no CRC (R51). -/
def opBytes (c : Fin 10) : List Byte := [Config.opcode0 c, Config.opcode1 c]

/-- A payload word on the wire (R51): `[w[15:8], w[7:0], crc8([w[15:8], w[7:0]])]`. -/
def wordBytes (w : Half) : List Byte :=
  [w.extractLsb' 8 8, w.extractLsb' 0 8, crc8 [w.extractLsb' 8 8, w.extractLsb' 0 8]]

/-- The state an accepted start of a legal command leaves: the fields R80 and R81 write, and no other. -/
def started (s : State) (c : BitVec 4) (sn : Snapshot) (frame : List Byte) : State :=
  { s with
    cmd := c
    status := ⟨true, false, .none, false, 0, false, 0#3, s.status.ovr⟩
    result0 := 0#16
    result1 := 0#16
    result2 := 0#16
    snap := sn
    cnt := 0#17
    rx := []
    phase := .write
    bus := some (.write s.taddr frame) }

/-- NREPLY of command c (R66). -/
def replyTable : Fin 10 → Fin 4 := ![0, 2, 2, 0, 0, 1, 1, 1, 0, 3]

/-- NPAYLOAD of command c (R66). -/
def payloadTable : Fin 10 → Fin 3 := ![0, 0, 0, 2, 1, 0, 0, 0, 1, 0]

/-- The write frame of command c (R51): the payload words that SetBaseline, SetAbsoluteHumidity and SetTvocBaseline send. -/
def frameOf (c : Fin 10) (s : State) : List Byte :=
  opBytes c ++ (if c ∈ [3, 4, 8] then wordBytes s.payload0 else []) ++ (if c = 3 then wordBytes s.payload1 else [])

/-- The read commands with their index and reply words (R66). -/
def readCommands : List (Instr × Fin 10 × Fin 4) :=
  [(.measureIaq, 1, 2), (.getBaseline, 2, 2), (.selfTest, 5, 1), (.getFeatureSet, 6, 1),
   (.getTvocInceptiveBaseline, 7, 1), (.getSerialId, 9, 3)]

/-- The write-only commands with their index and payload words (R66). -/
def writeOnlyCommands : List (Instr × Fin 10 × Fin 3) :=
  [(.init, 0, 0), (.setBaseline, 3, 2), (.setAbsHumidity, 4, 1), (.setTvocBaseline, 8, 1)]

/-- The illegal indices (R49). -/
def illegalCommands : List (Instr × BitVec 4) :=
  [(.illegalA, 0xA#4), (.illegalB, 0xB#4), (.illegalC, 0xC#4), (.illegalD, 0xD#4), (.illegalE, 0xE#4), (.illegalF, 0xF#4)]

/-- Byte `j` of a reply. -/
def replyByte (r : List Byte) (j : Nat) : Byte := r.getD j 0#8

/-- Reply group `k` satisfies `crc(byte[0], byte[1]) == byte[2]` (R53). -/
def groupGood (r : List Byte) (k : Nat) : Prop :=
  crc8 [replyByte r (3 * k), replyByte r (3 * k + 1)] = replyByte r (3 * k + 2)

/-- Word `k` of a reply of `n` words, and 0 beyond it (R88). -/
def wordOr0 (r : List Byte) (n k : Nat) : Half :=
  if k < n then replyByte r (3 * k) ++ replyByte r (3 * k + 1) else 0#16

/-- A read command up to its BusRead: the CMD write, the write answered OK, and `w + 1` ticks (R85). -/
def upToRead (i : Instr) (w : Half) : List Event :=
  [.host (encode i), .busWriteAnswer .ok] ++ List.replicate (w.toNat + 1) .tick

/-- What a read command leaves in the engine when it completes: the snapshot, the counter and no transaction. -/
def finished (s : State) (c : Fin 10) (n : Fin 4) (st : Status) (rx : List Byte) : State :=
  { s with
    cmd := BitVec.ofNat 4 c.val
    status := st
    result0 := 0#16
    result1 := 0#16
    result2 := 0#16
    snap := snapshotOf s c n 0
    cnt := BitVec.ofNat 17 ((s.waitMs.get c).toNat + 1)
    rx := rx
    phase := .idle
    bus := none }

/-- An event that is no illegal host access. -/
def legalEvent (e : Event) : Prop := ∀ a, e = .host a → a.wellFormed = true

/-- An event of the bus target. -/
def isAnswer (e : Event) : Prop := (∃ a, e = .busWriteAnswer a) ∨ ∃ a, e = .busReadAnswer a

/-- The bits of a register that a host write can change (the RW and W1C fields of R17 to R27). -/
def writableBits : Reg → Word
  | .ctrl => 0x1#32
  | .cmd => 0xF#32
  | .status => 0x802#32
  | .addr => 0x7F#32
  | .payload0 => 0xFFFF#32
  | .payload1 => 0xFFFF#32
  | .result0 => 0#32
  | .result1 => 0#32
  | .result2 => 0#32
  | .crcData => 0xFFFF#32
  | .crcCheck => 0xFF#32
  | .waitMs _ => 0xFFFF#32
  | .desc _ => 0#32

/-- The bits of a register that are not reserved (R17 to R27). -/
def definedBits : Reg → Word
  | .ctrl => 0x1#32
  | .cmd => 0xF#32
  | .status => 0x7FFF#32
  | .addr => 0x7F#32
  | .payload0 => 0xFFFF#32
  | .payload1 => 0xFFFF#32
  | .result0 => 0xFFFF#32
  | .result1 => 0xFFFF#32
  | .result2 => 0xFFFF#32
  | .crcData => 0xFFFF#32
  | .crcCheck => 0x1FFFF#32
  | .waitMs _ => 0xFFFF#32
  | .desc _ => 0xFFFFF#32

/-- The written bits an instruction's encoding uses; the rest of the word is reserved or read-only (R24, R25, R47). -/
def operandBits : Instr → Word
  | .crcUnit (.writeData _) => 0xFFFF#32
  | .crcUnit (.writeCheck _) => 0xFF#32
  | .crcUnit .readData => 0#32
  | .crcUnit .readCheck => 0#32
  | _ => 0xF#32

/-- The offset of a register, written out again from R15. -/
def offsetOf : Reg → Nat
  | .ctrl => 0x00
  | .cmd => 0x04
  | .status => 0x08
  | .addr => 0x0C
  | .payload0 => 0x10
  | .payload1 => 0x14
  | .result0 => 0x18
  | .result1 => 0x1C
  | .result2 => 0x20
  | .crcData => 0x24
  | .crcCheck => 0x28
  | .waitMs c => 0x40 + 4 * c.val
  | .desc c => 0x80 + 4 * c.val

/-- One bit of a register. -/
def bit (b : Bool) : BitVec 1 := if b then 1#1 else 0#1

/-- STATUS.ERR (R19). -/
def errBits : ErrKind → BitVec 2
  | .none => 0#2
  | .io => 1#2
  | .protocol => 2#2
  | .illegal => 3#2

/-- STATUS.PHASE (R19). -/
def phaseBits : Phase → BitVec 3
  | .idle => 0#3
  | .write => 1#3
  | .wait => 2#3
  | .read => 3#3
  | .check => 4#3

/-- The value of each register, written out from the field tables of R17 to R27, the highest field first. -/
def readValue (r : Reg) (s : State) : Word :=
  match r with
  | .ctrl => 0#31 ++ bit s.ie
  | .cmd => s.cmd.setWidth 32
  | .status =>
    0#17 ++ phaseBits s.phase ++ bit s.status.ovr ++ s.status.crcFail ++ bit s.status.ioRd
      ++ BitVec.ofNat 2 s.status.resCount.val ++ bit s.status.resValid ++ errBits s.status.err ++ bit s.status.done
      ++ bit s.status.busy
  | .addr => s.taddr.setWidth 32
  | .payload0 => s.payload0.setWidth 32
  | .payload1 => s.payload1.setWidth 32
  | .result0 => s.result0.setWidth 32
  | .result1 => s.result1.setWidth 32
  | .result2 => s.result2.setWidth 32
  | .crcData => s.crcData.setWidth 32
  | .crcCheck =>
    let value := crc8 [s.crcData.extractLsb' 8 8, s.crcData.extractLsb' 0 8]
    0#15 ++ bit (decide (value = s.crcExpect)) ++ value ++ s.crcExpect
  | .waitMs c => (s.waitMs.get c).setWidth 32
  | .desc c =>
    0#12 ++ BitVec.ofNat 2 (payloadTable c).val ++ BitVec.ofNat 2 (replyTable c).val ++ Config.opcode0 c
      ++ Config.opcode1 c

/-- The state after a write of `v` to each register, written out from R16 to R27, R80, R82 and R83. -/
def writtenState (r : Reg) (v : Word) (s : State) : State :=
  match r with
  | .ctrl => { s with ie := v.getLsbD 0 }
  | .cmd =>
    if s.status.busy then { s with status := { s.status with ovr := true } }
    else if h : (v.extractLsb' 0 4).toNat < 10 then
      let c : Fin 10 := ⟨(v.extractLsb' 0 4).toNat, h⟩
      started s (v.extractLsb' 0 4) (snapshotOf s c (replyTable c) (payloadTable c)) (frameOf c s)
    else
      { s with
        cmd := v.extractLsb' 0 4
        status := ⟨false, true, .illegal, false, 0, false, 0#3, s.status.ovr⟩
        result0 := 0#16
        result1 := 0#16
        result2 := 0#16
        phase := .idle }
  | .status =>
    { s with
      status := { s.status with
        done := if v.getLsbD 1 then false else s.status.done
        ovr := if v.getLsbD 11 then false else s.status.ovr } }
  | .addr => { s with taddr := v.extractLsb' 0 7 }
  | .payload0 => { s with payload0 := v.extractLsb' 0 16 }
  | .payload1 => { s with payload1 := v.extractLsb' 0 16 }
  | .result0 => s
  | .result1 => s
  | .result2 => s
  | .crcData => { s with crcData := v.extractLsb' 0 16 }
  | .crcCheck => { s with crcExpect := v.extractLsb' 0 8 }
  | .waitMs c => { s with waitMs := s.waitMs.set c (v.extractLsb' 0 16) }
  | .desc _ => s

/-- The mapped offsets of R15, one by one. -/
def mappedOffsets : List Nat :=
  [0x00, 0x04, 0x08, 0x0C, 0x10, 0x14, 0x18, 0x1C, 0x20, 0x24, 0x28,
   0x40, 0x44, 0x48, 0x4C, 0x50, 0x54, 0x58, 0x5C, 0x60, 0x64,
   0x80, 0x84, 0x88, 0x8C, 0x90, 0x94, 0x98, 0x9C, 0xA0, 0xA4]

/-- The index of an accepted CMD write: an event that starts a command in state `s` (R80). -/
def startIndex (s : State) (e : Event) : Option (BitVec 4) :=
  if accesses e .write .cmd ∧ s.status.busy = false then some ((writtenWord e).extractLsb' 0 4) else none

/-- The rows of the table of R79, as the phase an event leads to. -/
def phaseAfter (s : State) (e : Event) : Phase :=
  if e = .reset then .idle
  else match s.phase, e with
    | .idle, e =>
      match startIndex s e with
      | some c => if c.toNat ≤ 9 then .write else .idle
      | none => .idle
    | .write, .busWriteAnswer .fail => .idle
    | .write, .busWriteAnswer .ok => if s.snap.nreply = 0 then .idle else .wait
    | .wait, .tick => if s.cnt.toNat + 1 < s.snap.wait.toNat + 1 then .wait else .read
    | .read, .busReadAnswer .fail => .idle
    | .read, .busReadAnswer (.ok bs) => if bs.length = 3 * s.snap.nreply.val then .check else .idle
    | .check, .internal => .idle
    | p, _ => p

/-- The rows of the table of R79 that complete a command, with their outcome. -/
def outcomeOf (s : State) (e : Event) : Option ErrKind :=
  match s.phase, e with
  | .idle, e =>
    match startIndex s e with
    | some c => if 10 ≤ c.toNat then some .illegal else none
    | none => none
  | .write, .busWriteAnswer .fail => some .io
  | .write, .busWriteAnswer .ok => if s.snap.nreply = 0 then some .none else none
  | .read, .busReadAnswer .fail => some .io
  | .read, .busReadAnswer (.ok bs) => if bs.length = 3 * s.snap.nreply.val then none else some .io
  | .check, .internal =>
    if ∀ k < s.snap.nreply.val,
        crc8 [s.rx.getD (3 * k) 0#8, s.rx.getD (3 * k + 1) 0#8] = s.rx.getD (3 * k + 2) 0#8
      then some .none else some .protocol
  | _, _ => none

/-- The list of R108. -/
def ListedResetValues (t : State) : Prop :=
  t.ie = false ∧ t.cmd = 0#4 ∧ regRead .status t = 0x00000000#32 ∧ t.taddr = Config.defaultAddr
    ∧ t.payload0 = 0#16 ∧ t.payload1 = 0#16 ∧ t.result0 = 0#16 ∧ t.result1 = 0#16 ∧ t.result2 = 0#16
    ∧ t.crcData = 0#16 ∧ t.crcExpect = 0#8 ∧ regRead .crcCheck t = 0x00008100#32
    ∧ (∀ c : Fin 10, (t.waitMs.get c).toNat = [10, 12, 120, 10, 10, 520, 10, 10, 10, 10].getD c.val 0)
    ∧ t.phase = .idle ∧ t.cnt = 0#17 ∧ t.rx = [] ∧ t.bus = none ∧ irq t = false

/-- Two states that may differ in the snapshot alone, the fields R28 marks unspecified after reset. -/
def sameButSnapshot (s t : State) : Prop := { s with snap := t.snap } = t

/-- The engine's side of the state: what a running command reads and writes. -/
structure SameEngine (s t : State) : Prop where
  cmd : s.cmd = t.cmd
  status : s.status = t.status
  result0 : s.result0 = t.result0
  result1 : s.result1 = t.result1
  result2 : s.result2 = t.result2
  phase : s.phase = t.phase
  snap : s.snap = t.snap
  cnt : s.cnt = t.cnt
  rx : s.rx = t.rx
  bus : s.bus = t.bus

/-- The registers a command may only read at its start are left out; the rest of the register file is compared. -/
def sameButCommandSources (s t : State) : Prop :=
  SameEngine s t ∧ s.ie = t.ie ∧ s.crcData = t.crcData ∧ s.crcExpect = t.crcExpect

end Sys2Proof.Claims

open Sys2Proof.Claims

/-! ### The CRC-8 family -/

/-- R58 on the vectors of the source and of 95_test_vectors.md L1-1, L1-7, V-C1 (R61: `crc8([]) = 0xFF`). -/
def Obligations.CrcReferenceVectors : Prop :=
  crc8 [] = 0xFF#8 ∧ crc8 [0xBE#8, 0xEF#8] = 0x92#8 ∧ crc8 [0x00#8, 0x22#8] = 0x65#8 ∧ crc8 [0x80#8] = 0xD6#8
    ∧ crc8 [0x31#8, 0x32#8, 0x33#8, 0x34#8, 0x35#8, 0x36#8, 0x37#8, 0x38#8, 0x39#8] = 0xF7#8
    ∧ (enc 0xBEEF#16).bytes = [0xBE#8, 0xEF#8, 0x92#8]
    ∧ grpOk ⟨0x00#8, 0x22#8, 0x65#8⟩ = true ∧ grpOk ⟨0x00#8, 0x22#8, 0x9B#8⟩ = false

/-- R60: "An equivalent formulation gives the same result for every input". -/
def Obligations.CrcFormulationsAgree : Prop :=
  ∀ bytes : List Byte, crc8 bytes = crc8Alt bytes

/-- R61: `crc8([])`, the 256 preimages of every CRC value among the two-byte words, and the detection of every
single-bit error in a group; totality is that `crc8` is a function. -/
def Obligations.CrcDetectsSingleBitErrors : Prop :=
  (∀ bytes : List Byte, ∃ c : Byte, crc8 bytes = c) ∧ crc8 [] = 0xFF#8
    ∧ (∀ c : Byte,
        (Finset.univ.filter fun w : Fin 65536 => crc8 [msb (BitVec.ofFin w), lsb (BitVec.ofFin w)] = c).card = 256)
    ∧ ∀ (w : Half) (j : Nat), j < 24 →
        let good : BitVec 24 := (enc w).g0 ++ (enc w).g1 ++ (enc w).g2
        let bad := good ^^^ (1#24 <<< j)
        grpOk ⟨bad.extractLsb' 16 8, bad.extractLsb' 8 8, bad.extractLsb' 0 8⟩ = false

/-- R64: for every word, the encoded group passes the check and decodes to the word. -/
def Obligations.EncodedWordChecksAndDecodes : Prop :=
  ∀ w : Half, grpOk (enc w) = true ∧ dec (enc w) = w

/-- The CRC unit's encoding, its four forms with their whole effect, and its corner cases; the state may be any, so the
unit "works the same whether the engine is BUSY or not". R65 lists three of the accesses; the fourth, RD CRC_DATA, is the
register read of R24 and R31. That a read leaves its value in `env.readData` is the model's choice (log entry 7). -/
def Obligations.CrcUnitComputesAndCompares : Prop :=
  (∀ v : Word,
    decode (.wr .crcData v) = .ok (.crcUnit (.writeData (v.extractLsb' 0 16)))
      ∧ decode (.wr .crcCheck v) = .ok (.crcUnit (.writeCheck (v.extractLsb' 0 8)))
      ∧ decode (.rd .crcCheck) = .ok (.crcUnit .readCheck) ∧ decode (.rd .crcData) = .ok (.crcUnit .readData))
    ∧ (∀ (s : State) (w : Half), exec (.crcUnit (.writeData w)) s = .next { s with crcData := w })
    ∧ (∀ (s : State) (e : Byte), exec (.crcUnit (.writeCheck e)) s = .next { s with crcExpect := e })
    ∧ (∀ s : State, exec (.crcUnit .readData) s =
        .next { s with env := { s.env with readData := some (s.crcData.setWidth 32) } })
    ∧ (∀ s : State,
        let value := crc8 [s.crcData.extractLsb' 8 8, s.crcData.extractLsb' 0 8]
        let same : BitVec 1 := if value = s.crcExpect then 1#1 else 0#1
        exec (.crcUnit .readCheck) s =
          .next { s with env := { s.env with readData := some (0#15 ++ same ++ value ++ s.crcExpect) } })
    ∧ crc8 [0x00#8, 0x00#8] = 0x81#8 ∧ crc8 [0xFF#8, 0xFF#8] = 0xAC#8

/-! ### Encoding and the step -/

/-- Words written out from 30_encoding.md R47, R48, R49 and 40_crc.md R65 decode to what they stand for; an access 16 bits
wide and one at the unmapped offset 0x2C are rejected (20_memory.md R32, 10_state.md R15). That a table word of 32 bits
is the data of a CMD write is the model's choice (log entry 8). -/
def Obligations.WrittenOutWordsDecode : Prop :=
  decodeTableWord 32 0x00000000 = some .init ∧ decodeTableWord 32 0x00000001 = some .measureIaq
    ∧ decodeTableWord 32 0xFFFFFFF1 = some .measureIaq ∧ decodeTableWord 32 0x00000003 = some .setBaseline
    ∧ decodeTableWord 32 0x00000009 = some .getSerialId ∧ decodeTableWord 32 0x0000000E = some .illegalE
    ∧ decode ⟨.write, 32, 0x24, 0x0000BEEF#32⟩ = .ok (.crcUnit (.writeData 0xBEEF#16))
    ∧ decode ⟨.read, 32, 0x28, 0#32⟩ = .ok (.crcUnit .readCheck)
    ∧ decode ⟨.write, 16, 0x04, 1#32⟩ = .error .badWidth ∧ decode ⟨.read, 32, 0x2C, 0#32⟩ = .error .unmapped

/-- R47: bits 31:4 of a word written to CMD "do not affect decoding or legality", and R48 and R49 give every index its
command: the encoder's word for that command is the index. -/
def Obligations.CmdFieldAloneSelectsCommand : Prop :=
  ∀ v : Word, ∃ i : Instr,
    decode (.wr .cmd v) = .ok i ∧ encode i = .wr .cmd (v &&& 0xF#32)
      ∧ ∀ v' : Word, v.extractLsb' 0 4 = v'.extractLsb' 0 4 → decode (.wr .cmd v') = .ok i

/-- Decoding an encoded instruction gives it back, as a host access and as the triple's number (the number's layout is the
model's own, log entry 8); and an access that decodes is the encoding of its instruction but for reserved and read-only
bits, so no two instructions share an access. -/
def Obligations.DecodeAndEncodeAgree : Prop :=
  (∀ i : Instr, i.wellFormed = true →
    decode (encode i) = .ok i ∧ decodeTableWord 41 (encode i).toTableWord = some i)
    ∧ ∀ (a : HostAccess) (i : Instr), decode a = .ok i →
        a.width = 32 ∧ a.off = (encode i).off ∧ a.kind = (encode i).kind ∧ a.data &&& operandBits i = (encode i).data

/-- A step runs the decoded instruction: when the next event is a host access that decodes to `i`, step is exec of `i` on
the state with that event taken, and nothing else; the same for an encoded instruction placed next and for a table word.
That the next event is the first one placed (log entry 4), and what access a table word stands for (log entry 8), are the
model's choices; the spec numbers no table words. -/
def Obligations.StepRunsTheDecodedInstruction : Prop :=
  (∀ (s : State) (a : HostAccess) (i : Instr), nextEvent s.env = .host a → decode a = .ok i →
    step s = exec i (takeEvent s))
    ∧ (∀ (s : State) (i : Instr), i.wellFormed = true → step (s.place [.host (encode i)]) = exec i s)
    ∧ ∀ (s : State) (nbits w : Nat) (i : Instr), decodeTableWord nbits w = some i →
        step (s.withFetchWord nbits w) = exec i s

/-! ### The host port -/

/-- A legal RegWrite applies the effect 10_state.md gives for the register at that offset, and a legal RegRead returns its
value (R31), both written out register by register (`writtenState`, `readValue`); each completes in one step with nothing
else changed; any other access raises HostBusError of its offset. That the value read is left in `env.readData` is the
model's choice (log entry 7). -/
def Obligations.LegalAccessTakesItsRegisterEffect : Prop :=
  (∀ (r : Reg) (s : State),
    (∀ v : Word, step (s.place [.host ⟨.write, 32, offsetOf r, v⟩]) = .next (writtenState r v s))
      ∧ step (s.place [.host ⟨.read, 32, offsetOf r, 0#32⟩]) =
          .next { s with env := { s.env with readData := some (readValue r s) } })
    ∧ ∀ (a : HostAccess) (s : State), ¬(a.width = 32 ∧ a.off % 4 = 0 ∧ a.off ∈ mappedOffsets) →
        step (s.place [.host a]) = .fault (.hostBusError a.off)

/-- R32 and R95: a step faults exactly on a host access that is not 32 bits wide, not 4-byte aligned or at an offset R15
does not map, with the fault HostBusError of that offset; and no step is refused. -/
def Obligations.HostBusErrorExactlyOnIllegalAccess : Prop :=
  (∀ (s : State) (f : Fault), step s = .fault f ↔
    ∃ a : HostAccess, nextEvent s.env = .host a ∧ ¬(a.width = 32 ∧ a.off % 4 = 0 ∧ a.off ∈ mappedOffsets)
      ∧ f = .hostBusError a.off)
    ∧ ∀ (s : State) (r : Refusal), step s ≠ .refused r

/-- R16: reserved bits read as 0 and ignore writes, a write to a read-only register changes nothing and faults not, and
a read changes no register. -/
def Obligations.ReservedBitsAndReadOnlyRegisters : Prop :=
  (∀ (r : Reg) (s : State), regRead r s &&& ~~~definedBits r = 0#32)
    ∧ (∀ (r : Reg) (v v' : Word) (s : State), v &&& writableBits r = v' &&& writableBits r →
        step (s.place [.host ⟨.write, 32, r.offset, v⟩]) = step (s.place [.host ⟨.write, 32, r.offset, v'⟩]))
    ∧ (∀ (r : Reg) (v : Word) (s : State), writableBits r = 0#32 →
        step (s.place [.host ⟨.write, 32, r.offset, v⟩]) = .next s)
    ∧ ∀ (r q : Reg) (s t : State), step (s.place [.host ⟨.read, 32, r.offset, 0#32⟩]) = .next t →
        regRead q t = regRead q s

/-- Every plain RW register reads back what was written to its writable bits (R17, R21, R22, R24, R26), and every other
register reads as before, but for CRC_CHECK after a write to CRC_DATA (R25). -/
def Obligations.WrittenRegisterReadsBack : Prop :=
  ∀ (r : Reg) (v : Word) (s t : State),
    r ∈ [Reg.ctrl, .addr, .payload0, .payload1, .crcData] ∨ (∃ c, r = .waitMs c) →
    step (s.place [.host ⟨.write, 32, r.offset, v⟩]) = .next t →
      regRead r t = v &&& writableBits r
        ∧ ∀ q : Reg, q ≠ r → ¬(r = .crcData ∧ q = .crcCheck) → regRead q t = regRead q s

/-- R34: reads change no register and may be repeated; writes have side effects beyond storing their value only at CMD and
STATUS: every other write stores its writable bits and leaves every other register, the engine and what the host last read alone,
but for the VALUE and MATCH that CRC_CHECK computes from CRC_DATA (R25). Every write but CMD's is idempotent, and CMD's is
not. -/
def Obligations.HostReadsAndPlainWritesHaveNoSideEffects : Prop :=
  (∀ (r : Reg) (s t : State), step (s.place [.host ⟨.read, 32, r.offset, 0#32⟩]) = .next t →
    { s with env := t.env } = t ∧ step (t.place [.host ⟨.read, 32, r.offset, 0#32⟩]) = .next t)
    ∧ (∀ (r : Reg) (v : Word) (s t : State), r ≠ .cmd → r ≠ .status →
        step (s.place [.host ⟨.write, 32, r.offset, v⟩]) = .next t →
          regRead r t &&& writableBits r = v &&& writableBits r ∧ SameEngine s t ∧ t.env = s.env
            ∧ (r ≠ .crcCheck → t.crcExpect = s.crcExpect)
            ∧ ∀ q : Reg, q ≠ r → ¬(r = .crcData ∧ q = .crcCheck) → regRead q t = regRead q s)
    ∧ (∀ (r : Reg) (v : Word) (s t : State), r ≠ .cmd →
        step (s.place [.host ⟨.write, 32, r.offset, v⟩]) = .next t →
          step (t.place [.host ⟨.write, 32, r.offset, v⟩]) = .next t)
    ∧ ∃ (v : Word) (s t : State), step (s.place [.host ⟨.write, 32, 0x04, v⟩]) = .next t
        ∧ step (t.place [.host ⟨.write, 32, 0x04, v⟩]) ≠ .next t

/-- A write of `v` to STATUS clears DONE where `v[1] = 1` and OVR where `v[11] = 1`, and changes nothing else (R19), so
the outcome and the results stay readable after an acknowledgement (R99). That RESULTk and RES_VALID stay is the model's
choice of R99 against a sentence of R116 (log entry 9). -/
def Obligations.StatusWriteClearsOnlyDoneAndOvr : Prop :=
  ∀ (s : State) (v : Word), step (s.place [.host ⟨.write, 32, 0x08, v⟩]) =
    .next { s with
      status := { s.status with
        done := if v.getLsbD 1 then false else s.status.done
        ovr := if v.getLsbD 11 then false else s.status.ovr } }

/-- R27: DESCc reads its constants in every state, and a write to it changes nothing. -/
def Obligations.DescriptorRegistersAreConstant : Prop :=
  ∀ (c : Fin 10) (s : State),
    (regRead (.desc c) s).extractLsb' 0 8 = Config.opcode1 c ∧ (regRead (.desc c) s).extractLsb' 8 8 = Config.opcode0 c
      ∧ ((regRead (.desc c) s).extractLsb' 16 2).toNat = [0, 2, 2, 0, 0, 1, 1, 1, 0, 3].getD c.val 0
      ∧ ((regRead (.desc c) s).extractLsb' 18 2).toNat = [0, 0, 0, 2, 1, 0, 0, 0, 1, 0].getD c.val 0
      ∧ (regRead (.desc c) s).extractLsb' 20 12 = 0#12
      ∧ ∀ v : Word, step (s.place [.host ⟨.write, 32, 0x80 + 4 * c.val, v⟩]) = .next s

/-- The bit positions of STATUS (R19): each field stands at its bits of the word the host reads at offset 0x08. -/
def Obligations.StatusWordLayout : Prop :=
  ∀ s : State,
    let v := regRead .status s
    v.getLsbD 0 = s.status.busy ∧ v.getLsbD 1 = s.status.done
      ∧ v.extractLsb' 2 2 = (match s.status.err with | .none => 0#2 | .io => 1#2 | .protocol => 2#2 | .illegal => 3#2)
      ∧ v.getLsbD 4 = s.status.resValid ∧ (v.extractLsb' 5 2).toNat = s.status.resCount.val
      ∧ v.getLsbD 7 = s.status.ioRd ∧ v.extractLsb' 8 3 = s.status.crcFail ∧ v.getLsbD 11 = s.status.ovr
      ∧ v.extractLsb' 12 3 =
          (match s.phase with | .idle => 0#3 | .write => 1#3 | .wait => 2#3 | .read => 3#3 | .check => 4#3)
      ∧ v.extractLsb' 15 17 = 0#17

/-! ### The commands -/

/-- R80, with the snapshot of R81: a RegWrite to CMD while BUSY = 0 is accepted in that one step, whatever DONE was and
whatever bits 31:4 are; every field it writes, and no other. -/
def Obligations.AcceptedCmdWriteStartsTheCommand : Prop :=
  ∀ (s : State) (v : Word), s.status.busy = false →
    (∀ c : Fin 10, v.extractLsb' 0 4 = BitVec.ofNat 4 c.val →
      step (s.place [.host ⟨.write, 32, 0x04, v⟩]) =
        .next (started s (BitVec.ofNat 4 c.val) (takeSnapshot c s) (txFrame (takeSnapshot c s))))
      ∧ (10 ≤ (v.extractLsb' 0 4).toNat →
          step (s.place [.host ⟨.write, 32, 0x04, v⟩]) =
            .next { s with
              cmd := v.extractLsb' 0 4
              status := ⟨false, true, .illegal, false, 0, false, 0#3, s.status.ovr⟩
              result0 := 0#16
              result1 := 0#16
              result2 := 0#16
              phase := .idle })

/-- INIT, SET_BASELINE, SET_ABS_HUMIDITY and SET_TVOC_BASELINE (R69 to R72): while BUSY = 0 each starts, with the snapshot
of R81 and the frame of R51 written out, and changes nothing else. -/
def Obligations.WriteOnlyCommandsStart : Prop :=
  ∀ s : State, s.status.busy = false →
    exec .init s = .next (started s 0x0#4 (snapshotOf s 0 0 0) (opBytes 0))
      ∧ exec .setBaseline s = .next (started s 0x3#4 (snapshotOf s 3 0 2)
          (opBytes 3 ++ wordBytes s.payload0 ++ wordBytes s.payload1))
      ∧ exec .setAbsHumidity s = .next (started s 0x4#4 (snapshotOf s 4 0 1) (opBytes 4 ++ wordBytes s.payload0))
      ∧ exec .setTvocBaseline s = .next (started s 0x8#4 (snapshotOf s 8 0 1) (opBytes 8 ++ wordBytes s.payload0))

/-- MEASURE_IAQ, GET_BASELINE, SELF_TEST, GET_FEATURE_SET, GET_TVOC_INCEPTIVE_BASELINE and GET_SERIAL_ID (R73 to R78):
while BUSY = 0 each starts, with the snapshot of R81 and the opcode alone on the wire (R67), and changes nothing else. -/
def Obligations.ReadCommandsStart : Prop :=
  ∀ s : State, s.status.busy = false →
    exec .measureIaq s = .next (started s 0x1#4 (snapshotOf s 1 2 0) (opBytes 1))
      ∧ exec .getBaseline s = .next (started s 0x2#4 (snapshotOf s 2 2 0) (opBytes 2))
      ∧ exec .selfTest s = .next (started s 0x5#4 (snapshotOf s 5 1 0) (opBytes 5))
      ∧ exec .getFeatureSet s = .next (started s 0x6#4 (snapshotOf s 6 1 0) (opBytes 6))
      ∧ exec .getTvocInceptiveBaseline s = .next (started s 0x7#4 (snapshotOf s 7 1 0) (opBytes 7))
      ∧ exec .getSerialId s = .next (started s 0x9#4 (snapshotOf s 9 3 0) (opBytes 9))

/-- ILLEGAL_A to ILLEGAL_F (R82): while BUSY = 0 each completes at once with ERR = 3, DONE = 1, BUSY = 0, PHASE IDLE, no
result, no snapshot and no bus transaction, and CMD reads back the index. -/
def Obligations.IllegalIndicesCompleteAtOnce : Prop :=
  ∀ s : State, s.status.busy = false → ∀ p ∈ illegalCommands, ∃ t : State,
    exec p.1 s = .next t ∧ regRead .cmd t = p.2.setWidth 32
      ∧ t = { s with
          cmd := p.2
          status := ⟨false, true, .illegal, false, 0, false, 0#3, s.status.ovr⟩
          result0 := 0#16
          result1 := 0#16
          result2 := 0#16
          phase := .idle }

/-- R83: a CMD write while BUSY = 1, of any index, changes nothing but OVR, which becomes 1; and no step clears OVR but a
write of 1 to its bit of STATUS and reset. -/
def Obligations.BusyCmdWriteOnlySetsOverrun : Prop :=
  (∀ (s : State) (v : Word), s.status.busy = true →
    step (s.place [.host ⟨.write, 32, 0x04, v⟩]) = .next { s with status := { s.status with ovr := true } }
      ∧ exec (commandOf (v.extractLsb' 0 4)) s = .next { s with status := { s.status with ovr := true } })
    ∧ ∀ s t : State, s.status.ovr = true → step s = .next t → t.status.ovr = false →
        nextEvent s.env = .reset
          ∨ (accesses (nextEvent s.env) .write .status = true ∧ (writtenWord (nextEvent s.env)).getLsbD 11 = true)

/-! ### The engine -/

/-- R84: the answer to the BusWrite completes the command with IO_ERROR, completes a write-only command, or begins the
wait with the counter at 0; nothing else changes. -/
def Obligations.WriteAnswerEndsOrBeginsTheWait : Prop :=
  ∀ s : State, s.phase = .write →
    step (s.place [.busWriteAnswer .fail]) =
        .next { s with
          status := ⟨false, true, .io, s.status.resValid, s.status.resCount, false, 0#3, s.status.ovr⟩
          phase := .idle
          bus := none }
      ∧ (s.snap.nreply = 0 → step (s.place [.busWriteAnswer .ok]) =
          .next { s with
            status := ⟨false, true, .none, true, 0, false, 0#3, s.status.ovr⟩
            phase := .idle
            bus := none })
      ∧ (s.snap.nreply ≠ 0 → step (s.place [.busWriteAnswer .ok]) =
          .next { s with phase := .wait, cnt := 0#17, bus := none })

/-- R85: WAIT lasts until the (s.wait + 1)-th tick after its entry and not one tick less; on that tick the BusRead of
`3 * s.nreply` bytes is issued to `s.taddr`; a tick in any other phase has no effect. With the tick period of R6 the wait
is more than s.wait ms whatever the (positive) delay `d` before the first tick, and 65535 ms does not overflow. The clause
on milliseconds is R85's own derivation, and that times are whole nanoseconds is the model's choice (log entry 3). -/
def Obligations.WaitTakesWaitPlusOneTicks : Prop :=
  (∀ (s : State) (n : Nat), s.phase = .wait → s.cnt = 0#17 → n ≤ s.snap.wait.toNat →
    RunsTo s (List.replicate n .tick) { s with cnt := BitVec.ofNat 17 n })
    ∧ (∀ s : State, s.phase = .wait → s.cnt = 0#17 →
        RunsTo s (List.replicate (s.snap.wait.toNat + 1) .tick)
          { s with
            cnt := BitVec.ofNat 17 (s.snap.wait.toNat + 1)
            phase := .read
            bus := some (.read s.snap.taddr (3 * s.snap.nreply.val)) })
    ∧ (∀ s : State, s.phase ≠ .wait → step (s.place [.tick]) = .next s)
    ∧ (∀ (w : Half) (d : Nat), 0 < d → w.toNat * Config.nsPerMs < d + w.toNat * Config.tickPeriodNs)
    ∧ ∀ w : Half, (BitVec.ofNat 17 (w.toNat + 1)).toNat = w.toNat + 1

/-- R86 and R40: the answer to the BusRead: FAIL or any other number of bytes than `3 * s.nreply` completes with IO_ERROR
and IO_RD = 1; the right number goes to CHECK. Nothing else changes. -/
def Obligations.ReadAnswerFailsOrGoesToCheck : Prop :=
  ∀ (s : State) (a : ReadAnswer), s.phase = .read →
    ((∀ bs, a = .ok bs → bs.length ≠ 3 * s.snap.nreply.val) →
      step (s.place [.busReadAnswer a]) =
        .next { s with
          status := ⟨false, true, .io, s.status.resValid, s.status.resCount, true, 0#3, s.status.ovr⟩
          phase := .idle
          bus := none })
      ∧ ∀ bs, a = .ok bs → bs.length = 3 * s.snap.nreply.val →
          step (s.place [.busReadAnswer a]) = .next { s with rx := bs, phase := .check, bus := none }

/-- R87, with the completion of R89: CHECK is one step; some failing group means PROTOCOL_ERROR with the mask of all
failing groups and no word delivered; otherwise every word is delivered (R88). -/
def Obligations.CheckIsAllOrNothing : Prop :=
  ∀ s : State, s.phase = .check → s.rx.length = 3 * s.snap.nreply.val →
    ((∃ k < s.snap.nreply.val, ¬groupGood s.rx k) → ∃ m : BitVec 3,
      (∀ k < 3, (m.getLsbD k = true ↔ k < s.snap.nreply.val ∧ ¬groupGood s.rx k))
        ∧ step (s.place [.internal]) =
          .next { s with
            status := ⟨false, true, .protocol, s.status.resValid, s.status.resCount, false, m, s.status.ovr⟩
            phase := .idle })
      ∧ ((∀ k < s.snap.nreply.val, groupGood s.rx k) → ∃ r0 r1 r2 : Half,
          step (s.place [.internal]) =
            .next { s with
              status := ⟨false, true, .none, true, s.snap.nreply, false, 0#3, s.status.ovr⟩
              result0 := r0
              result1 := r1
              result2 := r2
              phase := .idle }
          ∧ r0 = (if 0 < s.snap.nreply.val then replyByte s.rx 0 ++ replyByte s.rx 1 else s.result0)
          ∧ r1 = (if 1 < s.snap.nreply.val then replyByte s.rx 3 ++ replyByte s.rx 4 else s.result1)
          ∧ r2 = (if 2 < s.snap.nreply.val then replyByte s.rx 6 ++ replyByte s.rx 7 else s.result2))

/-! ### Whole commands -/

/-- The shared read pseudocode of 41_commands.md section 3, from the CMD write to delivery: for every read command, with
the write answered OK, `s.wait + 1` ticks and a reply whose groups all pass, the command ends with ERR = 0 and its words in
RESULT0.., and STATUS reads `RES_COUNT·0x20 + RES_VALID + DONE` beside OVR. -/
def Obligations.ReadCommandDeliversItsReply : Prop :=
  ∀ (s : State), s.status.busy = false → ∀ p ∈ readCommands, ∀ bytes : List Byte,
    bytes.length = 3 * p.2.2.val → (∀ k < p.2.2.val, groupGood bytes k) → ∃ t : State,
      RunsTo s (upToRead p.1 (s.waitMs.get p.2.1) ++ [.busReadAnswer (.ok bytes), .internal]) t
        ∧ t = { finished s p.2.1 p.2.2 ⟨false, true, .none, true, p.2.2, false, 0#3, s.status.ovr⟩ bytes with
            result0 := wordOr0 bytes p.2.2.val 0
            result1 := wordOr0 bytes p.2.2.val 1
            result2 := wordOr0 bytes p.2.2.val 2 }
        ∧ regRead .status t = BitVec.ofNat 32 (p.2.2.val * 0x20 + 0x12 + if s.status.ovr then 0x800 else 0)

/-- R94: from the CMD write on, a reply with any failing group ends every read command with PROTOCOL_ERROR, CRC_FAIL is
exactly the mask of the failing groups (bits k ≥ nreply are 0), and no RESULT register holds a word, not even of a group
that passed. -/
def Obligations.AnyCorruptedGroupDiscardsTheReply : Prop :=
  ∀ (s : State), s.status.busy = false → ∀ p ∈ readCommands, ∀ bytes : List Byte,
    bytes.length = 3 * p.2.2.val → (∃ k < p.2.2.val, ¬groupGood bytes k) → ∃ m : BitVec 3,
      (∀ k < 3, (m.getLsbD k = true ↔ k < p.2.2.val ∧ ¬groupGood bytes k))
        ∧ RunsTo s (upToRead p.1 (s.waitMs.get p.2.1) ++ [.busReadAnswer (.ok bytes), .internal])
            (finished s p.2.1 p.2.2 ⟨false, true, .protocol, false, 0, false, m, s.status.ovr⟩ bytes)

/-- R93: every legal command whose BusWrite fails completes at once with IO_ERROR and IO_RD = 0, with no wait and no read;
every read command whose BusRead fails (or has the wrong length, R40) completes with IO_ERROR and IO_RD = 1, with no CRC
check; nothing is outstanding afterwards, so nothing is retried. -/
def Obligations.BusFailureCompletesWithIoError : Prop :=
  ∀ s : State, s.status.busy = false →
    (∀ c : Fin 10, RunsTo s [.host (encode (commandOf (BitVec.ofNat 4 c.val))), .busWriteAnswer .fail]
      { started s (BitVec.ofNat 4 c.val) (takeSnapshot c s) [] with
        status := ⟨false, true, .io, false, 0, false, 0#3, s.status.ovr⟩
        phase := .idle
        bus := none })
      ∧ ∀ p ∈ readCommands, ∀ a : ReadAnswer, (∀ bs, a = .ok bs → bs.length ≠ 3 * p.2.2.val) →
          RunsTo s (upToRead p.1 (s.waitMs.get p.2.1) ++ [.busReadAnswer a])
            (finished s p.2.1 p.2.2 ⟨false, true, .io, false, 0, true, 0#3, s.status.ovr⟩ [])

/-- The write-only commands (41_commands.md section 2; R84 "no read, no wait"): when the write is answered OK the command
ends at once with ERR = 0, RES_VALID = 1 and RES_COUNT = 0, and STATUS reads 0x12 beside OVR. -/
def Obligations.WriteOnlyCommandCompletesOnItsWrite : Prop :=
  ∀ s : State, s.status.busy = false → ∀ p ∈ writeOnlyCommands, ∃ t : State,
    RunsTo s [.host (encode p.1), .busWriteAnswer .ok] t
      ∧ t = { started s (BitVec.ofNat 4 p.2.1.val) (snapshotOf s p.2.1 0 p.2.2) [] with
          status := ⟨false, true, .none, true, 0, false, 0#3, s.status.ovr⟩
          phase := .idle
          bus := none }
      ∧ regRead .status t = BitVec.ofNat 32 (0x12 + if s.status.ovr then 0x800 else 0)

/-! ### Whole-machine rules -/

/-- The invariant holds at reset. -/
def Obligations.InvariantHoldsAtReset : Prop := Inv State.reset

/-- Every step keeps the invariant: the six invariants of STATUS (R19), the one outstanding transaction (R28, R38), the
snapshot of the command in progress (R81), the reply's length, and the completion record (R88, R89, R92, R94). -/
def Obligations.EveryStepKeepsTheInvariant : Prop :=
  ∀ s t : State, Inv s → step s = .next t → Inv t

/-- R79: the engine's phase moves along the rows of the table and no other, and the rows that complete a command leave
DONE = 1, BUSY = 0 and their outcome; a step on no such row completes nothing. -/
def Obligations.PhaseMovesOnlyAlongTheTable : Prop :=
  ∀ s t : State, Inv s → step s = .next t →
    t.phase = phaseAfter s (nextEvent s.env)
      ∧ (∀ k, outcomeOf s (nextEvent s.env) = some k →
          t.status.done = true ∧ t.status.busy = false ∧ t.status.err = k)
      ∧ (outcomeOf s (nextEvent s.env) = none → t.status.done = true → s.status.done = true)

/-- R20: each STATUS field changes only at the events R20 names for it. -/
def Obligations.StatusFieldsChangeOnlyAtTheirEvents : Prop :=
  ∀ s t : State, Inv s → step s = .next t →
    let e := nextEvent s.env
    let starts := (startIndex s e).isSome = true
    let completes := fun k => outcomeOf s e = some k
    (t.status.busy = true → s.status.busy = false → ∃ c, startIndex s e = some c ∧ c.toNat < 10)
      ∧ (t.status.busy = false → s.status.busy = true → e = .reset ∨ ∃ k, completes k)
      ∧ (t.status.done = true → s.status.done = false → ∃ k, completes k)
      ∧ (t.status.done = false → s.status.done = true →
          e = .reset ∨ starts ∨ (accesses e .write .status = true ∧ (writtenWord e).getLsbD 1 = true))
      ∧ (t.status.err ≠ s.status.err → e = .reset ∨ starts ∨ completes t.status.err)
      ∧ (t.status.resValid ≠ s.status.resValid ∨ t.status.resCount ≠ s.status.resCount →
          e = .reset ∨ starts ∨ completes .none)
      ∧ (t.status.ioRd = true → s.status.ioRd = false → completes .io ∧ s.phase = .read)
      ∧ (t.status.ioRd = false → s.status.ioRd = true → e = .reset ∨ starts)
      ∧ (t.status.crcFail ≠ s.status.crcFail → e = .reset ∨ starts ∨ completes .protocol)
      ∧ (t.status.ovr = true → s.status.ovr = false → accesses e .write .cmd = true ∧ s.status.busy = true)
      ∧ (t.status.ovr = false → s.status.ovr = true →
          e = .reset ∨ (accesses e .write .status = true ∧ (writtenWord e).getLsbD 11 = true))

/-- Every register the host sets changes only by a host write to it or by reset, RESULT0..2 only at an accepted start, a
completion with ERR = 0 or reset, and CMD only at an accepted start or reset (R18, R20, R88). -/
def Obligations.RegistersChangeOnlyByTheirWriters : Prop :=
  ∀ s t : State, Inv s → step s = .next t → nextEvent s.env ≠ .reset →
    let e := nextEvent s.env
    (t.ie ≠ s.ie → accesses e .write .ctrl = true) ∧ (t.taddr ≠ s.taddr → accesses e .write .addr = true)
      ∧ (t.payload0 ≠ s.payload0 → accesses e .write .payload0 = true)
      ∧ (t.payload1 ≠ s.payload1 → accesses e .write .payload1 = true)
      ∧ (t.crcData ≠ s.crcData → accesses e .write .crcData = true)
      ∧ (t.crcExpect ≠ s.crcExpect → accesses e .write .crcCheck = true)
      ∧ (∀ c : Fin 10, t.waitMs.get c ≠ s.waitMs.get c → accesses e .write (.waitMs c) = true)
      ∧ (t.cmd ≠ s.cmd → startIndex s e = some t.cmd)
      ∧ ∀ k, t.result k ≠ s.result k → (startIndex s e).isSome = true ∨ outcomeOf s e = some .none

/-- R38: every accepted start of a legal command issues a BusWrite; a new BusWrite is issued only so, and a new BusRead
only at the end of WAIT; no transaction is issued while another is outstanding. An answer takes the transaction away and
leaves WRITE or READ, a FAIL to IDLE, and WAIT is entered only from WRITE, on OK, with nreply > 0. So a command has one
write and at most one read, and no retry. The frames are 2, 5 or 8 and 3, 6 or 9 bytes long. -/
def Obligations.OneWriteAndAtMostOneReadPerCommand : Prop :=
  ∀ s t : State, Inv s → step s = .next t →
    (∀ c, startIndex s (nextEvent s.env) = some c → c.toNat < 10 → ∃ bs, t.bus = some (.write s.taddr bs))
      ∧ (∀ a bs, t.bus = some (.write a bs) → s.bus ≠ some (.write a bs) ∨ s.phase ≠ .write →
      s.bus = none ∧ s.phase = .idle ∧ ∃ c, startIndex s (nextEvent s.env) = some c ∧ c.toNat < 10)
      ∧ (∀ a n, t.bus = some (.read a n) → s.bus ≠ some (.read a n) ∨ s.phase ≠ .read →
          s.bus = none ∧ s.phase = .wait ∧ nextEvent s.env = .tick ∧ a = s.snap.taddr ∧ n = 3 * s.snap.nreply.val)
      ∧ (∀ a, s.phase = .write → nextEvent s.env = .busWriteAnswer a →
          t.bus = none ∧ t.phase ≠ .write ∧ t.phase ≠ .read ∧ (a = .fail → t.phase = .idle))
      ∧ (∀ a, s.phase = .read → nextEvent s.env = .busReadAnswer a →
          t.bus = none ∧ t.phase ≠ .write ∧ t.phase ≠ .read ∧ (a = .fail → t.phase = .idle))
      ∧ (t.phase = .wait → s.phase ≠ .wait →
          s.phase = .write ∧ nextEvent s.env = .busWriteAnswer .ok ∧ s.snap.nreply ≠ 0)
      ∧ (∀ a bs, t.bus = some (.write a bs) → bs.length = 2 ∨ bs.length = 5 ∨ bs.length = 8)
      ∧ ∀ a n, t.bus = some (.read a n) → n = 3 ∨ n = 6 ∨ n = 9

/-- Completion is one atomic step that describes the command named by CMD.CMD (R43, R89, R98): it leaves CMD, BUSY falls,
PHASE is IDLE, DONE rises, `irq` is CTRL.IE; on success RES_COUNT is the command's reply length, on an error nothing of the
reply survives. -/
def Obligations.CompletionIsAtomicAndPrecise : Prop :=
  ∀ s t : State, Inv s → step s = .next t → s.status.busy = true → t.status.busy = false →
    nextEvent s.env ≠ .reset →
      t.cmd = s.cmd ∧ t.phase = .idle ∧ t.status.done = true ∧ irq t = s.ie ∧ t.bus = none
        ∧ (t.status.err = .none → t.status.resValid = true ∧ t.status.resCount = s.snap.nreply)
        ∧ (t.status.err ≠ .none → t.status.resValid = false ∧ t.status.resCount = 0 ∧ ∀ k, t.result k = 0#16)

/-- R100: `irq = CTRL.IE & STATUS.DONE`; it rises only at a completion or when IE is set, and W1C of DONE, an accepted
start of a legal command and reset lower it; OVR raises none. -/
def Obligations.InterruptFollowsDone : Prop :=
  (∀ s : State, irq s = (s.ie && s.status.done))
    ∧ (∀ s t : State, Inv s → step s = .next t → irq t = true → irq s = false →
        (∃ k, outcomeOf s (nextEvent s.env) = some k) ∨ accesses (nextEvent s.env) .write .ctrl = true)
    ∧ (∀ s t : State, Inv s → step s = .next t →
        (∃ k, outcomeOf s (nextEvent s.env) = some k) → irq t = s.ie)
    ∧ ∀ s t : State, step s = .next t →
        nextEvent s.env = .reset
          ∨ (accesses (nextEvent s.env) .write .status = true ∧ (writtenWord (nextEvent s.env)).getLsbD 1 = true)
          ∨ (∃ c, startIndex s (nextEvent s.env) = some c ∧ c.toNat < 10) →
        irq t = false

/-- R119 and R90: a bus target that never answers keeps BUSY = 1 for ever. Over any number of legal host accesses, ticks
and scheduler steps, with no answer and no reset, the command stays where it is with its transaction outstanding. -/
def Obligations.UnansweredTransactionHangs : Prop :=
  ∀ (s : State) (es : List Event), s.status.busy = true → s.phase = .write ∨ s.phase = .read →
    (∀ e ∈ es, legalEvent e ∧ ¬isAnswer e ∧ e ≠ .reset) →
      ∃ t, RunsTo s es t ∧ t.status.busy = true ∧ t.phase = s.phase ∧ t.bus = s.bus ∧ t.cmd = s.cmd ∧ t.snap = s.snap
        ∧ (s.status.done = false → t.status.done = false)

/-- After a completion the record and the results stay what they are until the next accepted start or reset, whatever else
happens, but for the W1C of DONE (R43: a host that reads DONE = 1 and then RESULTk sees the RESULTk of that same
completion; R99). That they stay after a W1C of DONE is the model's choice of R99 against a sentence of R116 (log
entry 9). -/
def Obligations.ResultsStayUntilTheNextStart : Prop :=
  ∀ (s t : State) (es : List Event), Inv s → s.phase = .idle →
    (∀ e ∈ es, accesses e .write .cmd = false ∧ e ≠ .reset) → RunsTo s es t →
      t.cmd = s.cmd ∧ (∀ k, t.result k = s.result k) ∧ t.status.err = s.status.err
        ∧ t.status.resValid = s.status.resValid ∧ t.status.resCount = s.status.resCount
        ∧ t.status.ioRd = s.status.ioRd ∧ t.status.crcFail = s.status.crcFail ∧ t.status.busy = false

/-- R81, R117: from the start to the completion the engine reads only its snapshot. Two states that differ in ADDR,
PAYLOAD0, PAYLOAD1 and WAIT_MS alone, with a command in progress, take the same event to states whose engines agree;
so writes to those registers do not affect the command in progress. -/
def Obligations.RunningCommandIgnoresItsSourceRegisters : Prop :=
  ∀ (s t s' : State) (e : Event), s.status.busy = true → sameButCommandSources s t → e ≠ .reset →
    fire e s = .next s' → ∃ t', fire e t = .next t' ∧ sameButCommandSources s' t'

/-- R28: the snapshot fields, unspecified after reset, are read by no step while `s.phase` = IDLE. Two idle states that
differ in them alone step alike: both fault alike, or their next states agree outright once a command has started, and
agree but for the snapshot while idle. The reset values of those fields (a choice of the model, log entry 6) thus do not
matter. -/
def Obligations.UnspecifiedSnapshotIsNeverReadWhileIdle : Prop :=
  ∀ s t : State, s.phase = .idle → sameButSnapshot s t →
    (∀ f, step s = .fault f ↔ step t = .fault f)
      ∧ ∀ s', step s = .next s' → ∃ t', step t = .next t'
          ∧ ((s'.phase = .idle ∧ sameButSnapshot s' t') ∨ (s'.phase ≠ .idle ∧ s' = t'))

/-- A host that writes ADDR, PAYLOAD0, PAYLOAD1 and WAIT_MSc and then CMD is guaranteed that the command uses the new
values (R44). -/
def Obligations.SettingsWrittenBeforeCmdAreUsed : Prop :=
  ∀ (s : State) (c : Fin 10) (a p q w : Word), s.status.busy = false → ∃ t : State,
    RunsTo s [.host (.wr .addr a), .host (.wr .payload0 p), .host (.wr .payload1 q), .host (.wr (.waitMs c) w),
      .host (.wr .cmd (BitVec.ofNat 32 c.val))] t
      ∧ t.phase = .write ∧ t.snap.taddr = a.extractLsb' 0 7 ∧ t.snap.pay0 = p.extractLsb' 0 16
      ∧ t.snap.pay1 = q.extractLsb' 0 16 ∧ t.snap.wait = w.extractLsb' 0 16
      ∧ t.bus = some (.write (a.extractLsb' 0 7) (opBytes c
          ++ (if c ∈ [3, 4, 8] then wordBytes (p.extractLsb' 0 16) else [])
          ++ (if c = 3 then wordBytes (q.extractLsb' 0 16) else [])))

/-! ### Reset -/

/-- R108: the reset state, and the state a reset step leaves from any state, hold the listed values, with `irq` low, no
transaction outstanding and DESC unaffected. (The snapshot is unspecified there: log entry 6.) -/
def Obligations.ResetLeavesTheListedValues : Prop :=
  ListedResetValues State.reset
    ∧ ∀ s : State, ∃ t : State, step (s.place [.reset]) = .next t ∧ ListedResetValues t
        ∧ ∀ c : Fin 10, regRead (.desc c) t = regRead (.desc c) s

/-- A reset while BUSY = 1 abandons the command with no completion recorded, and a late answer is never delivered to the
engine (R109). -/
def Obligations.ResetAbandonsTheCommand : Prop :=
  ∀ s : State, s.status.busy = true → ∃ t : State,
    step (s.place [.reset]) = .next t ∧ t.status.done = false ∧ t.status.busy = false ∧ irq t = false ∧ t.bus = none
      ∧ ∀ e : Event, isAnswer e → step (t.place [e]) = .next t

/-! ### What the host reads and sets -/

/-- A delivered reply reads back (R23, R54): after a read command has completed with ERR = 0, RD RESULTk at 0x18 + 4·k
returns word `k` of the reply, zero-extended, and 0 beyond its last word (R88). That the value read is left in
`env.readData` is the model's choice (log entry 7). -/
def Obligations.DeliveredWordsAreReadAtTheResultRegisters : Prop :=
  ∀ (s : State), s.status.busy = false → ∀ p ∈ readCommands, ∀ bytes : List Byte,
    bytes.length = 3 * p.2.2.val → (∀ k < p.2.2.val, groupGood bytes k) → ∀ k < 3, ∃ t : State,
      RunsTo s (upToRead p.1 (s.waitMs.get p.2.1)
          ++ [.busReadAnswer (.ok bytes), .internal, .host ⟨.read, 32, 0x18 + 4 * k, 0#32⟩]) t
        ∧ t.env.readData = some ((wordOr0 bytes p.2.2.val k).setWidth 32)

/-- R17: a write of `v` to CTRL makes IE = v[0] at the end of that step, in the field `irq` reads, and changes nothing else,
so it starts and cancels no command; CTRL reads IE in bit 0 and 0 above; IE is 0 after reset. -/
def Obligations.CtrlWriteSetsTheInterruptEnable : Prop :=
  (∀ (s : State) (v : Word), ∃ t : State,
    step (s.place [.host ⟨.write, 32, 0x00, v⟩]) = .next t ∧ t = { s with ie := v.getLsbD 0 }
      ∧ irq t = (v.getLsbD 0 && s.status.done) ∧ regRead .ctrl t = v &&& 1#32)
    ∧ (∀ s : State, regRead .ctrl s = if s.ie then 1#32 else 0#32) ∧ State.reset.ie = false

/-- CMD reads the index of the most recently accepted command (R18): bits 3:0 of the written word after every accepted
write, legal or not, and the index it had after a write that is ignored; a read returns it and changes nothing. That the
value read is left in `env.readData` is the model's choice (log entry 7). -/
def Obligations.CmdReadsTheLastAcceptedIndex : Prop :=
  (∀ (s : State) (v : Word), ∃ t : State, step (s.place [.host ⟨.write, 32, 0x04, v⟩]) = .next t
    ∧ (s.status.busy = false → regRead .cmd t = v &&& 0xF#32)
    ∧ (s.status.busy = true → regRead .cmd t = regRead .cmd s ∧ t.status.ovr = true))
    ∧ (∀ s : State, step (s.place [.host ⟨.read, 32, 0x04, 0#32⟩]) =
        .next { s with env := { s.env with readData := some (s.cmd.setWidth 32) } })
    ∧ regRead .cmd State.reset = 0#32

/-! ### The settle gap and the tick source -/

/-- A safe host respects R112 for every target: between the completion of a write-only command `c` with ERR = 0 and the
next CMD write for the same target there are at least WAIT_MSc + 1 ticks, whatever commands to other targets run in
between. WAIT_MSc is the command's entry at its start: a write to it while BUSY = 1 applies from the next start (R81,
R117). The first clause takes the run from the completion on, the write answered OK in WRITE, and reads the entry from the
snapshot: anything may have happened since the start, `q` is whatever gaps are pending, and BUSY = 1 holds in every state
of the invariant with that phase. The second takes it from the CMD write on and reads the register there: any events but
an answer to the write or a reset, writes to WAIT_MSc and ADDR among them, may come before the completion. That the gap
of WAIT_MSc ms is counted as ticks of that entry is the model's reading (log entry 21). -/
def Obligations.SafeRunKeepsTheSettleGap : Prop :=
  (∀ (q : List Gap) (s t : State) (es : List Event) (e : Event),
    s.status.busy = true → s.phase = .write → s.snap.nreply = 0 →
    safeRun q ([.busWriteAnswer .ok] ++ es ++ [e]) s → RunsTo s ([.busWriteAnswer .ok] ++ es) t →
    accesses e .write .cmd = true → t.taddr = s.snap.taddr →
      s.snap.wait.toNat + 1 ≤ es.count .tick)
    ∧ ∀ (q : List Gap) (s t : State) (p : Instr × Fin 10 × Fin 3) (before es : List Event) (e : Event),
      s.status.busy = false → p ∈ writeOnlyCommands → (∀ a ∈ before, (∀ w, a ≠ .busWriteAnswer w) ∧ a ≠ .reset) →
      safeRun q ([.host (encode p.1)] ++ before ++ [.busWriteAnswer .ok] ++ es ++ [e]) s →
      RunsTo s ([.host (encode p.1)] ++ before ++ [.busWriteAnswer .ok] ++ es) t →
      accesses e .write .cmd = true → t.taddr = s.taddr →
        (s.waitMs.get p.2.1).toNat + 1 ≤ es.count .tick

/-- The tick source of R103: its period is at least 1 ms, it delivers ticks for ever, and CHECK's step comes again and again
(R91), whatever is placed first; a tick outside WAIT changes nothing, every entry to WAIT starts the count at 0, and no
register reads the count. The rounds that make ticks come for ever are the model's own form of that assumption (log
entries 4 and 19). -/
def Obligations.TickSourceRunsForEver : Prop :=
  Config.nsPerMs ≤ Config.tickPeriodNs
    ∧ (∀ (env : Env) (n : Nat), (∃ m, n ≤ m ∧ env.eventAt m = .tick) ∧ ∃ m, n ≤ m ∧ env.eventAt m = .internal)
    ∧ (∀ s : State, s.phase ≠ .wait → step (s.place [.tick]) = .next s)
    ∧ (∀ s t : State, step s = .next t → s.phase ≠ .wait → t.phase = .wait → t.cnt = 0#17)
    ∧ ∀ (s : State) (n : BitVec 17) (r : Reg), regRead r { s with cnt := n } = regRead r s

/-- With ticks for ever and a fair CHECK no command stays in WAIT or CHECK (R91, R103): from every such state of the
invariant, whatever else the environment does, some number of steps leads from WAIT to READ and from CHECK to its
completion, unless a reset or a HostBusError comes first. Rests on the model's form of that fairness (log entries 4 and
19). -/
def Obligations.FairEnvironmentEndsWaitAndCheck : Prop :=
  ∀ s : State, Inv s →
    (s.phase = .wait → ∃ k, (∃ f, Host.Core.run Sys2Proof.core k s = .fault f)
      ∨ ∃ t : State, Host.Core.run Sys2Proof.core k s = .next t
          ∧ (t.phase = .read ∨ ∃ j < k, s.env.eventAt j = .reset))
      ∧ (s.phase = .check → ∃ k, (∃ f, Host.Core.run Sys2Proof.core k s = .fault f)
          ∨ ∃ t : State, Host.Core.run Sys2Proof.core k s = .next t
              ∧ ((t.phase = .idle ∧ t.status.done = true) ∨ ∃ j < k, s.env.eventAt j = .reset))

/-- Without ticks WAIT never ends (R79 "none out of WAIT without ticks", R103): over any number of legal host accesses, bus
answers and scheduler steps, with no tick and no reset, a command in WAIT stays there with its count. -/
def Obligations.WaitWithoutTicksLasts : Prop :=
  ∀ (s : State) (es : List Event), s.status.busy = true → s.phase = .wait →
    (∀ e ∈ es, legalEvent e ∧ e ≠ .tick ∧ e ≠ .reset) →
      ∃ t, RunsTo s es t ∧ t.status.busy = true ∧ t.phase = .wait ∧ t.cnt = s.cnt ∧ t.snap = s.snap ∧ t.cmd = s.cmd
        ∧ t.bus = s.bus
end

