-- ==== Sys2Proof/Laws/Decode.lean ====
section
/-! SUPPORT. Lemmas about the register offsets, the legality of an access and the decoder. -/

namespace Sys2Proof

@[simp] theorem Reg.ofOffset_offset (r : Reg) : Reg.ofOffset r.offset = some r := by
  cases r with
  | waitMs c => revert c; decide
  | desc c => revert c; decide
  | _ => rfl

theorem Reg.offset_aligned (r : Reg) : r.offset % 4 = 0 := by
  cases r <;> simp only [Reg.offset] <;> omega

theorem Reg.offset_ofOffset {off : Nat} {r : Reg} (h : Reg.ofOffset off = some r) : r.offset = off := by
  simpa using List.find?_some h

/-- At every aligned offset up to the last one of R15, the ranges of R15 hold exactly where a register stands. -/
theorem mapped_below : ∀ off < 0xA5, off % 4 = 0 →
    (HostAccess.mappedOk ⟨.read, 32, off, 0#32⟩ = (Reg.ofOffset off).isSome) := by
  decide +kernel

/-- The mapped offsets of R15, listed as ranges, are exactly those at which a register stands. -/
theorem mappedOk_iff_ofOffset (a : HostAccess) (h : a.off % 4 = 0) :
    a.mappedOk = true ↔ (Reg.ofOffset a.off).isSome := by
  by_cases hb : a.off < 0xA5
  · rw [← mapped_below a.off hb h]; rfl
  · have hn : Reg.ofOffset a.off = none := by
      rw [Option.eq_none_iff_forall_ne_some]
      intro r hr
      have := Reg.offset_ofOffset hr
      cases r with
      | waitMs c => have := c.isLt; simp only [Reg.offset] at *; omega
      | desc c => have := c.isLt; simp only [Reg.offset] at *; omega
      | _ => simp only [Reg.offset] at *; omega
    simp [HostAccess.mappedOk, hn]; omega

/-- A legal access (R32) is one of the right width at a register's offset. -/
theorem wellFormed_iff (a : HostAccess) :
    a.wellFormed = true ↔ a.width = 32 ∧ ∃ r, Reg.ofOffset a.off = some r := by
  simp only [HostAccess.wellFormed, HostAccess.widthOk, HostAccess.alignedOk, Bool.and_eq_true, beq_iff_eq]
  constructor
  · rintro ⟨⟨hw, ha⟩, hm⟩
    exact ⟨hw, Option.isSome_iff_exists.mp ((mappedOk_iff_ofOffset a ha).mp hm)⟩
  · rintro ⟨hw, r, hr⟩
    have ha : a.off % 4 = 0 := by rw [← Reg.offset_ofOffset hr]; exact r.offset_aligned
    exact ⟨⟨hw, ha⟩, (mappedOk_iff_ofOffset a ha).mpr (by simp [hr])⟩

@[simp] theorem HostAccess.rd_wellFormed (r : Reg) : (HostAccess.rd r).wellFormed = true :=
  (wellFormed_iff _).mpr ⟨rfl, r, Reg.ofOffset_offset r⟩

@[simp] theorem HostAccess.wr_wellFormed (r : Reg) (v : Word) : (HostAccess.wr r v).wellFormed = true :=
  (wellFormed_iff _).mpr ⟨rfl, r, Reg.ofOffset_offset r⟩

/-- The decoder on a legal access, register by register. -/
theorem decode_of_ofOffset {a : HostAccess} {r : Reg} (hw : a.width = 32) (hr : Reg.ofOffset a.off = some r) :
    decode a = decodeReg r a.kind a.data := by
  have ha : a.off % 4 = 0 := by rw [← Reg.offset_ofOffset hr]; exact r.offset_aligned
  simp only [decode, hw, ha, hr, ne_eq, not_true_eq_false, if_false]

@[simp] theorem decode_wr (r : Reg) (v : Word) : decode (.wr r v) = decodeReg r .write v :=
  decode_of_ofOffset rfl (Reg.ofOffset_offset r)

@[simp] theorem decode_rd (r : Reg) : decode (.rd r) = decodeReg r .read 0#32 :=
  decode_of_ofOffset rfl (Reg.ofOffset_offset r)

/-- A plain register access is rejected under the register's own name. -/
theorem decodeReg_error {r : Reg} {k : AccessKind} {v : Word} {j : Reject} (h : decodeReg r k v = .error j) :
    j = .plainRegister r := by
  cases r <;> cases k <;> simp_all [decodeReg]

/-- The decoder gives no instruction exactly for an illegal access or a plain register access. -/
theorem decode_error_cases {a : HostAccess} {j : Reject} (h : decode a = .error j) :
    (a.wellFormed = false ∧ (j = .badWidth ∨ j = .misaligned ∨ j = .unmapped)) ∨
      ∃ r, a.width = 32 ∧ Reg.ofOffset a.off = some r ∧ j = .plainRegister r := by
  by_cases hwf : a.wellFormed = true
  · obtain ⟨hw, r, hr⟩ := (wellFormed_iff a).mp hwf
    rw [decode_of_ofOffset hw hr] at h
    exact .inr ⟨r, hw, hr, decodeReg_error h⟩
  · refine .inl ⟨by simpa using hwf, ?_⟩
    have hn : ¬(a.width = 32 ∧ ∃ r, Reg.ofOffset a.off = some r) := fun hh => hwf ((wellFormed_iff a).mpr hh)
    unfold decode at h
    split at h
    · simp_all
    · split at h
      · simp_all
      · cases ho : Reg.ofOffset a.off with
        | none => simp_all
        | some r => exact absurd ⟨by omega, r, ho⟩ hn

theorem decode_ok_wellFormed {a : HostAccess} {i : Instr} (h : decode a = .ok i) : a.wellFormed = true := by
  by_contra hwf
  have hn : ¬(a.width = 32 ∧ ∃ r, Reg.ofOffset a.off = some r) := fun hh => hwf ((wellFormed_iff a).mpr hh)
  unfold decode at h
  split at h
  · simp at h
  · split at h
    · simp at h
    · cases ho : Reg.ofOffset a.off with
      | none => simp [ho] at h
      | some r => exact hn ⟨by omega, r, ho⟩

end Sys2Proof
end

