-- ==== Sys2Proof/Laws/State.lean ====
section
/-! SUPPORT. One lemma per field per register update of Machine/Ops.lean, each true by rfl. -/

namespace Sys2Proof.Machine

@[simp] theorem State.setIe_ie (s : State) (v : Bool) : (s.setIe v).ie = v := rfl
@[simp] theorem State.setIe_cmd (s : State) (v : Bool) : (s.setIe v).cmd = s.cmd := rfl
@[simp] theorem State.setIe_status (s : State) (v : Bool) : (s.setIe v).status = s.status := rfl
@[simp] theorem State.setIe_taddr (s : State) (v : Bool) : (s.setIe v).taddr = s.taddr := rfl
@[simp] theorem State.setIe_payload0 (s : State) (v : Bool) : (s.setIe v).payload0 = s.payload0 := rfl
@[simp] theorem State.setIe_payload1 (s : State) (v : Bool) : (s.setIe v).payload1 = s.payload1 := rfl
@[simp] theorem State.setIe_result0 (s : State) (v : Bool) : (s.setIe v).result0 = s.result0 := rfl
@[simp] theorem State.setIe_result1 (s : State) (v : Bool) : (s.setIe v).result1 = s.result1 := rfl
@[simp] theorem State.setIe_result2 (s : State) (v : Bool) : (s.setIe v).result2 = s.result2 := rfl
@[simp] theorem State.setIe_crcData (s : State) (v : Bool) : (s.setIe v).crcData = s.crcData := rfl
@[simp] theorem State.setIe_crcExpect (s : State) (v : Bool) : (s.setIe v).crcExpect = s.crcExpect := rfl
@[simp] theorem State.setIe_waitMs (s : State) (v : Bool) : (s.setIe v).waitMs = s.waitMs := rfl
@[simp] theorem State.setIe_phase (s : State) (v : Bool) : (s.setIe v).phase = s.phase := rfl
@[simp] theorem State.setIe_snap (s : State) (v : Bool) : (s.setIe v).snap = s.snap := rfl
@[simp] theorem State.setIe_cnt (s : State) (v : Bool) : (s.setIe v).cnt = s.cnt := rfl
@[simp] theorem State.setIe_rx (s : State) (v : Bool) : (s.setIe v).rx = s.rx := rfl
@[simp] theorem State.setIe_bus (s : State) (v : Bool) : (s.setIe v).bus = s.bus := rfl
@[simp] theorem State.setIe_env (s : State) (v : Bool) : (s.setIe v).env = s.env := rfl

@[simp] theorem State.setCmd_ie (s : State) (v : BitVec 4) : (s.setCmd v).ie = s.ie := rfl
@[simp] theorem State.setCmd_cmd (s : State) (v : BitVec 4) : (s.setCmd v).cmd = v := rfl
@[simp] theorem State.setCmd_status (s : State) (v : BitVec 4) : (s.setCmd v).status = s.status := rfl
@[simp] theorem State.setCmd_taddr (s : State) (v : BitVec 4) : (s.setCmd v).taddr = s.taddr := rfl
@[simp] theorem State.setCmd_payload0 (s : State) (v : BitVec 4) : (s.setCmd v).payload0 = s.payload0 := rfl
@[simp] theorem State.setCmd_payload1 (s : State) (v : BitVec 4) : (s.setCmd v).payload1 = s.payload1 := rfl
@[simp] theorem State.setCmd_result0 (s : State) (v : BitVec 4) : (s.setCmd v).result0 = s.result0 := rfl
@[simp] theorem State.setCmd_result1 (s : State) (v : BitVec 4) : (s.setCmd v).result1 = s.result1 := rfl
@[simp] theorem State.setCmd_result2 (s : State) (v : BitVec 4) : (s.setCmd v).result2 = s.result2 := rfl
@[simp] theorem State.setCmd_crcData (s : State) (v : BitVec 4) : (s.setCmd v).crcData = s.crcData := rfl
@[simp] theorem State.setCmd_crcExpect (s : State) (v : BitVec 4) : (s.setCmd v).crcExpect = s.crcExpect := rfl
@[simp] theorem State.setCmd_waitMs (s : State) (v : BitVec 4) : (s.setCmd v).waitMs = s.waitMs := rfl
@[simp] theorem State.setCmd_phase (s : State) (v : BitVec 4) : (s.setCmd v).phase = s.phase := rfl
@[simp] theorem State.setCmd_snap (s : State) (v : BitVec 4) : (s.setCmd v).snap = s.snap := rfl
@[simp] theorem State.setCmd_cnt (s : State) (v : BitVec 4) : (s.setCmd v).cnt = s.cnt := rfl
@[simp] theorem State.setCmd_rx (s : State) (v : BitVec 4) : (s.setCmd v).rx = s.rx := rfl
@[simp] theorem State.setCmd_bus (s : State) (v : BitVec 4) : (s.setCmd v).bus = s.bus := rfl
@[simp] theorem State.setCmd_env (s : State) (v : BitVec 4) : (s.setCmd v).env = s.env := rfl

@[simp] theorem State.setStatus_ie (s : State) (v : Status) : (s.setStatus v).ie = s.ie := rfl
@[simp] theorem State.setStatus_cmd (s : State) (v : Status) : (s.setStatus v).cmd = s.cmd := rfl
@[simp] theorem State.setStatus_status (s : State) (v : Status) : (s.setStatus v).status = v := rfl
@[simp] theorem State.setStatus_taddr (s : State) (v : Status) : (s.setStatus v).taddr = s.taddr := rfl
@[simp] theorem State.setStatus_payload0 (s : State) (v : Status) : (s.setStatus v).payload0 = s.payload0 := rfl
@[simp] theorem State.setStatus_payload1 (s : State) (v : Status) : (s.setStatus v).payload1 = s.payload1 := rfl
@[simp] theorem State.setStatus_result0 (s : State) (v : Status) : (s.setStatus v).result0 = s.result0 := rfl
@[simp] theorem State.setStatus_result1 (s : State) (v : Status) : (s.setStatus v).result1 = s.result1 := rfl
@[simp] theorem State.setStatus_result2 (s : State) (v : Status) : (s.setStatus v).result2 = s.result2 := rfl
@[simp] theorem State.setStatus_crcData (s : State) (v : Status) : (s.setStatus v).crcData = s.crcData := rfl
@[simp] theorem State.setStatus_crcExpect (s : State) (v : Status) : (s.setStatus v).crcExpect = s.crcExpect := rfl
@[simp] theorem State.setStatus_waitMs (s : State) (v : Status) : (s.setStatus v).waitMs = s.waitMs := rfl
@[simp] theorem State.setStatus_phase (s : State) (v : Status) : (s.setStatus v).phase = s.phase := rfl
@[simp] theorem State.setStatus_snap (s : State) (v : Status) : (s.setStatus v).snap = s.snap := rfl
@[simp] theorem State.setStatus_cnt (s : State) (v : Status) : (s.setStatus v).cnt = s.cnt := rfl
@[simp] theorem State.setStatus_rx (s : State) (v : Status) : (s.setStatus v).rx = s.rx := rfl
@[simp] theorem State.setStatus_bus (s : State) (v : Status) : (s.setStatus v).bus = s.bus := rfl
@[simp] theorem State.setStatus_env (s : State) (v : Status) : (s.setStatus v).env = s.env := rfl

@[simp] theorem State.setTaddr_ie (s : State) (v : Addr) : (s.setTaddr v).ie = s.ie := rfl
@[simp] theorem State.setTaddr_cmd (s : State) (v : Addr) : (s.setTaddr v).cmd = s.cmd := rfl
@[simp] theorem State.setTaddr_status (s : State) (v : Addr) : (s.setTaddr v).status = s.status := rfl
@[simp] theorem State.setTaddr_taddr (s : State) (v : Addr) : (s.setTaddr v).taddr = v := rfl
@[simp] theorem State.setTaddr_payload0 (s : State) (v : Addr) : (s.setTaddr v).payload0 = s.payload0 := rfl
@[simp] theorem State.setTaddr_payload1 (s : State) (v : Addr) : (s.setTaddr v).payload1 = s.payload1 := rfl
@[simp] theorem State.setTaddr_result0 (s : State) (v : Addr) : (s.setTaddr v).result0 = s.result0 := rfl
@[simp] theorem State.setTaddr_result1 (s : State) (v : Addr) : (s.setTaddr v).result1 = s.result1 := rfl
@[simp] theorem State.setTaddr_result2 (s : State) (v : Addr) : (s.setTaddr v).result2 = s.result2 := rfl
@[simp] theorem State.setTaddr_crcData (s : State) (v : Addr) : (s.setTaddr v).crcData = s.crcData := rfl
@[simp] theorem State.setTaddr_crcExpect (s : State) (v : Addr) : (s.setTaddr v).crcExpect = s.crcExpect := rfl
@[simp] theorem State.setTaddr_waitMs (s : State) (v : Addr) : (s.setTaddr v).waitMs = s.waitMs := rfl
@[simp] theorem State.setTaddr_phase (s : State) (v : Addr) : (s.setTaddr v).phase = s.phase := rfl
@[simp] theorem State.setTaddr_snap (s : State) (v : Addr) : (s.setTaddr v).snap = s.snap := rfl
@[simp] theorem State.setTaddr_cnt (s : State) (v : Addr) : (s.setTaddr v).cnt = s.cnt := rfl
@[simp] theorem State.setTaddr_rx (s : State) (v : Addr) : (s.setTaddr v).rx = s.rx := rfl
@[simp] theorem State.setTaddr_bus (s : State) (v : Addr) : (s.setTaddr v).bus = s.bus := rfl
@[simp] theorem State.setTaddr_env (s : State) (v : Addr) : (s.setTaddr v).env = s.env := rfl

@[simp] theorem State.setPayload0_ie (s : State) (v : Half) : (s.setPayload0 v).ie = s.ie := rfl
@[simp] theorem State.setPayload0_cmd (s : State) (v : Half) : (s.setPayload0 v).cmd = s.cmd := rfl
@[simp] theorem State.setPayload0_status (s : State) (v : Half) : (s.setPayload0 v).status = s.status := rfl
@[simp] theorem State.setPayload0_taddr (s : State) (v : Half) : (s.setPayload0 v).taddr = s.taddr := rfl
@[simp] theorem State.setPayload0_payload0 (s : State) (v : Half) : (s.setPayload0 v).payload0 = v := rfl
@[simp] theorem State.setPayload0_payload1 (s : State) (v : Half) : (s.setPayload0 v).payload1 = s.payload1 := rfl
@[simp] theorem State.setPayload0_result0 (s : State) (v : Half) : (s.setPayload0 v).result0 = s.result0 := rfl
@[simp] theorem State.setPayload0_result1 (s : State) (v : Half) : (s.setPayload0 v).result1 = s.result1 := rfl
@[simp] theorem State.setPayload0_result2 (s : State) (v : Half) : (s.setPayload0 v).result2 = s.result2 := rfl
@[simp] theorem State.setPayload0_crcData (s : State) (v : Half) : (s.setPayload0 v).crcData = s.crcData := rfl
@[simp] theorem State.setPayload0_crcExpect (s : State) (v : Half) : (s.setPayload0 v).crcExpect = s.crcExpect := rfl
@[simp] theorem State.setPayload0_waitMs (s : State) (v : Half) : (s.setPayload0 v).waitMs = s.waitMs := rfl
@[simp] theorem State.setPayload0_phase (s : State) (v : Half) : (s.setPayload0 v).phase = s.phase := rfl
@[simp] theorem State.setPayload0_snap (s : State) (v : Half) : (s.setPayload0 v).snap = s.snap := rfl
@[simp] theorem State.setPayload0_cnt (s : State) (v : Half) : (s.setPayload0 v).cnt = s.cnt := rfl
@[simp] theorem State.setPayload0_rx (s : State) (v : Half) : (s.setPayload0 v).rx = s.rx := rfl
@[simp] theorem State.setPayload0_bus (s : State) (v : Half) : (s.setPayload0 v).bus = s.bus := rfl
@[simp] theorem State.setPayload0_env (s : State) (v : Half) : (s.setPayload0 v).env = s.env := rfl

@[simp] theorem State.setPayload1_ie (s : State) (v : Half) : (s.setPayload1 v).ie = s.ie := rfl
@[simp] theorem State.setPayload1_cmd (s : State) (v : Half) : (s.setPayload1 v).cmd = s.cmd := rfl
@[simp] theorem State.setPayload1_status (s : State) (v : Half) : (s.setPayload1 v).status = s.status := rfl
@[simp] theorem State.setPayload1_taddr (s : State) (v : Half) : (s.setPayload1 v).taddr = s.taddr := rfl
@[simp] theorem State.setPayload1_payload0 (s : State) (v : Half) : (s.setPayload1 v).payload0 = s.payload0 := rfl
@[simp] theorem State.setPayload1_payload1 (s : State) (v : Half) : (s.setPayload1 v).payload1 = v := rfl
@[simp] theorem State.setPayload1_result0 (s : State) (v : Half) : (s.setPayload1 v).result0 = s.result0 := rfl
@[simp] theorem State.setPayload1_result1 (s : State) (v : Half) : (s.setPayload1 v).result1 = s.result1 := rfl
@[simp] theorem State.setPayload1_result2 (s : State) (v : Half) : (s.setPayload1 v).result2 = s.result2 := rfl
@[simp] theorem State.setPayload1_crcData (s : State) (v : Half) : (s.setPayload1 v).crcData = s.crcData := rfl
@[simp] theorem State.setPayload1_crcExpect (s : State) (v : Half) : (s.setPayload1 v).crcExpect = s.crcExpect := rfl
@[simp] theorem State.setPayload1_waitMs (s : State) (v : Half) : (s.setPayload1 v).waitMs = s.waitMs := rfl
@[simp] theorem State.setPayload1_phase (s : State) (v : Half) : (s.setPayload1 v).phase = s.phase := rfl
@[simp] theorem State.setPayload1_snap (s : State) (v : Half) : (s.setPayload1 v).snap = s.snap := rfl
@[simp] theorem State.setPayload1_cnt (s : State) (v : Half) : (s.setPayload1 v).cnt = s.cnt := rfl
@[simp] theorem State.setPayload1_rx (s : State) (v : Half) : (s.setPayload1 v).rx = s.rx := rfl
@[simp] theorem State.setPayload1_bus (s : State) (v : Half) : (s.setPayload1 v).bus = s.bus := rfl
@[simp] theorem State.setPayload1_env (s : State) (v : Half) : (s.setPayload1 v).env = s.env := rfl

@[simp] theorem State.setResults_ie (s : State) (a b c : Half) : (s.setResults a b c).ie = s.ie := rfl
@[simp] theorem State.setResults_cmd (s : State) (a b c : Half) : (s.setResults a b c).cmd = s.cmd := rfl
@[simp] theorem State.setResults_status (s : State) (a b c : Half) : (s.setResults a b c).status = s.status := rfl
@[simp] theorem State.setResults_taddr (s : State) (a b c : Half) : (s.setResults a b c).taddr = s.taddr := rfl
@[simp] theorem State.setResults_payload0 (s : State) (a b c : Half) : (s.setResults a b c).payload0 = s.payload0 := rfl
@[simp] theorem State.setResults_payload1 (s : State) (a b c : Half) : (s.setResults a b c).payload1 = s.payload1 := rfl
@[simp] theorem State.setResults_result0 (s : State) (a b c : Half) : (s.setResults a b c).result0 = a := rfl
@[simp] theorem State.setResults_result1 (s : State) (a b c : Half) : (s.setResults a b c).result1 = b := rfl
@[simp] theorem State.setResults_result2 (s : State) (a b c : Half) : (s.setResults a b c).result2 = c := rfl
@[simp] theorem State.setResults_crcData (s : State) (a b c : Half) : (s.setResults a b c).crcData = s.crcData := rfl
@[simp] theorem State.setResults_crcExpect (s : State) (a b c : Half) : (s.setResults a b c).crcExpect = s.crcExpect := rfl
@[simp] theorem State.setResults_waitMs (s : State) (a b c : Half) : (s.setResults a b c).waitMs = s.waitMs := rfl
@[simp] theorem State.setResults_phase (s : State) (a b c : Half) : (s.setResults a b c).phase = s.phase := rfl
@[simp] theorem State.setResults_snap (s : State) (a b c : Half) : (s.setResults a b c).snap = s.snap := rfl
@[simp] theorem State.setResults_cnt (s : State) (a b c : Half) : (s.setResults a b c).cnt = s.cnt := rfl
@[simp] theorem State.setResults_rx (s : State) (a b c : Half) : (s.setResults a b c).rx = s.rx := rfl
@[simp] theorem State.setResults_bus (s : State) (a b c : Half) : (s.setResults a b c).bus = s.bus := rfl
@[simp] theorem State.setResults_env (s : State) (a b c : Half) : (s.setResults a b c).env = s.env := rfl

@[simp] theorem State.setCrcData_ie (s : State) (v : Half) : (s.setCrcData v).ie = s.ie := rfl
@[simp] theorem State.setCrcData_cmd (s : State) (v : Half) : (s.setCrcData v).cmd = s.cmd := rfl
@[simp] theorem State.setCrcData_status (s : State) (v : Half) : (s.setCrcData v).status = s.status := rfl
@[simp] theorem State.setCrcData_taddr (s : State) (v : Half) : (s.setCrcData v).taddr = s.taddr := rfl
@[simp] theorem State.setCrcData_payload0 (s : State) (v : Half) : (s.setCrcData v).payload0 = s.payload0 := rfl
@[simp] theorem State.setCrcData_payload1 (s : State) (v : Half) : (s.setCrcData v).payload1 = s.payload1 := rfl
@[simp] theorem State.setCrcData_result0 (s : State) (v : Half) : (s.setCrcData v).result0 = s.result0 := rfl
@[simp] theorem State.setCrcData_result1 (s : State) (v : Half) : (s.setCrcData v).result1 = s.result1 := rfl
@[simp] theorem State.setCrcData_result2 (s : State) (v : Half) : (s.setCrcData v).result2 = s.result2 := rfl
@[simp] theorem State.setCrcData_crcData (s : State) (v : Half) : (s.setCrcData v).crcData = v := rfl
@[simp] theorem State.setCrcData_crcExpect (s : State) (v : Half) : (s.setCrcData v).crcExpect = s.crcExpect := rfl
@[simp] theorem State.setCrcData_waitMs (s : State) (v : Half) : (s.setCrcData v).waitMs = s.waitMs := rfl
@[simp] theorem State.setCrcData_phase (s : State) (v : Half) : (s.setCrcData v).phase = s.phase := rfl
@[simp] theorem State.setCrcData_snap (s : State) (v : Half) : (s.setCrcData v).snap = s.snap := rfl
@[simp] theorem State.setCrcData_cnt (s : State) (v : Half) : (s.setCrcData v).cnt = s.cnt := rfl
@[simp] theorem State.setCrcData_rx (s : State) (v : Half) : (s.setCrcData v).rx = s.rx := rfl
@[simp] theorem State.setCrcData_bus (s : State) (v : Half) : (s.setCrcData v).bus = s.bus := rfl
@[simp] theorem State.setCrcData_env (s : State) (v : Half) : (s.setCrcData v).env = s.env := rfl

@[simp] theorem State.setCrcExpect_ie (s : State) (v : Byte) : (s.setCrcExpect v).ie = s.ie := rfl
@[simp] theorem State.setCrcExpect_cmd (s : State) (v : Byte) : (s.setCrcExpect v).cmd = s.cmd := rfl
@[simp] theorem State.setCrcExpect_status (s : State) (v : Byte) : (s.setCrcExpect v).status = s.status := rfl
@[simp] theorem State.setCrcExpect_taddr (s : State) (v : Byte) : (s.setCrcExpect v).taddr = s.taddr := rfl
@[simp] theorem State.setCrcExpect_payload0 (s : State) (v : Byte) : (s.setCrcExpect v).payload0 = s.payload0 := rfl
@[simp] theorem State.setCrcExpect_payload1 (s : State) (v : Byte) : (s.setCrcExpect v).payload1 = s.payload1 := rfl
@[simp] theorem State.setCrcExpect_result0 (s : State) (v : Byte) : (s.setCrcExpect v).result0 = s.result0 := rfl
@[simp] theorem State.setCrcExpect_result1 (s : State) (v : Byte) : (s.setCrcExpect v).result1 = s.result1 := rfl
@[simp] theorem State.setCrcExpect_result2 (s : State) (v : Byte) : (s.setCrcExpect v).result2 = s.result2 := rfl
@[simp] theorem State.setCrcExpect_crcData (s : State) (v : Byte) : (s.setCrcExpect v).crcData = s.crcData := rfl
@[simp] theorem State.setCrcExpect_crcExpect (s : State) (v : Byte) : (s.setCrcExpect v).crcExpect = v := rfl
@[simp] theorem State.setCrcExpect_waitMs (s : State) (v : Byte) : (s.setCrcExpect v).waitMs = s.waitMs := rfl
@[simp] theorem State.setCrcExpect_phase (s : State) (v : Byte) : (s.setCrcExpect v).phase = s.phase := rfl
@[simp] theorem State.setCrcExpect_snap (s : State) (v : Byte) : (s.setCrcExpect v).snap = s.snap := rfl
@[simp] theorem State.setCrcExpect_cnt (s : State) (v : Byte) : (s.setCrcExpect v).cnt = s.cnt := rfl
@[simp] theorem State.setCrcExpect_rx (s : State) (v : Byte) : (s.setCrcExpect v).rx = s.rx := rfl
@[simp] theorem State.setCrcExpect_bus (s : State) (v : Byte) : (s.setCrcExpect v).bus = s.bus := rfl
@[simp] theorem State.setCrcExpect_env (s : State) (v : Byte) : (s.setCrcExpect v).env = s.env := rfl

@[simp] theorem State.setWaitMs_ie (s : State) (c : Fin 10) (v : Half) : (s.setWaitMs c v).ie = s.ie := rfl
@[simp] theorem State.setWaitMs_cmd (s : State) (c : Fin 10) (v : Half) : (s.setWaitMs c v).cmd = s.cmd := rfl
@[simp] theorem State.setWaitMs_status (s : State) (c : Fin 10) (v : Half) : (s.setWaitMs c v).status = s.status := rfl
@[simp] theorem State.setWaitMs_taddr (s : State) (c : Fin 10) (v : Half) : (s.setWaitMs c v).taddr = s.taddr := rfl
@[simp] theorem State.setWaitMs_payload0 (s : State) (c : Fin 10) (v : Half) : (s.setWaitMs c v).payload0 = s.payload0 := rfl
@[simp] theorem State.setWaitMs_payload1 (s : State) (c : Fin 10) (v : Half) : (s.setWaitMs c v).payload1 = s.payload1 := rfl
@[simp] theorem State.setWaitMs_result0 (s : State) (c : Fin 10) (v : Half) : (s.setWaitMs c v).result0 = s.result0 := rfl
@[simp] theorem State.setWaitMs_result1 (s : State) (c : Fin 10) (v : Half) : (s.setWaitMs c v).result1 = s.result1 := rfl
@[simp] theorem State.setWaitMs_result2 (s : State) (c : Fin 10) (v : Half) : (s.setWaitMs c v).result2 = s.result2 := rfl
@[simp] theorem State.setWaitMs_crcData (s : State) (c : Fin 10) (v : Half) : (s.setWaitMs c v).crcData = s.crcData := rfl
@[simp] theorem State.setWaitMs_crcExpect (s : State) (c : Fin 10) (v : Half) : (s.setWaitMs c v).crcExpect = s.crcExpect := rfl
@[simp] theorem State.setWaitMs_waitMs (s : State) (c : Fin 10) (v : Half) : (s.setWaitMs c v).waitMs = s.waitMs.set c v := rfl
@[simp] theorem State.setWaitMs_phase (s : State) (c : Fin 10) (v : Half) : (s.setWaitMs c v).phase = s.phase := rfl
@[simp] theorem State.setWaitMs_snap (s : State) (c : Fin 10) (v : Half) : (s.setWaitMs c v).snap = s.snap := rfl
@[simp] theorem State.setWaitMs_cnt (s : State) (c : Fin 10) (v : Half) : (s.setWaitMs c v).cnt = s.cnt := rfl
@[simp] theorem State.setWaitMs_rx (s : State) (c : Fin 10) (v : Half) : (s.setWaitMs c v).rx = s.rx := rfl
@[simp] theorem State.setWaitMs_bus (s : State) (c : Fin 10) (v : Half) : (s.setWaitMs c v).bus = s.bus := rfl
@[simp] theorem State.setWaitMs_env (s : State) (c : Fin 10) (v : Half) : (s.setWaitMs c v).env = s.env := rfl

@[simp] theorem State.setPhase_ie (s : State) (v : Phase) : (s.setPhase v).ie = s.ie := rfl
@[simp] theorem State.setPhase_cmd (s : State) (v : Phase) : (s.setPhase v).cmd = s.cmd := rfl
@[simp] theorem State.setPhase_status (s : State) (v : Phase) : (s.setPhase v).status = s.status := rfl
@[simp] theorem State.setPhase_taddr (s : State) (v : Phase) : (s.setPhase v).taddr = s.taddr := rfl
@[simp] theorem State.setPhase_payload0 (s : State) (v : Phase) : (s.setPhase v).payload0 = s.payload0 := rfl
@[simp] theorem State.setPhase_payload1 (s : State) (v : Phase) : (s.setPhase v).payload1 = s.payload1 := rfl
@[simp] theorem State.setPhase_result0 (s : State) (v : Phase) : (s.setPhase v).result0 = s.result0 := rfl
@[simp] theorem State.setPhase_result1 (s : State) (v : Phase) : (s.setPhase v).result1 = s.result1 := rfl
@[simp] theorem State.setPhase_result2 (s : State) (v : Phase) : (s.setPhase v).result2 = s.result2 := rfl
@[simp] theorem State.setPhase_crcData (s : State) (v : Phase) : (s.setPhase v).crcData = s.crcData := rfl
@[simp] theorem State.setPhase_crcExpect (s : State) (v : Phase) : (s.setPhase v).crcExpect = s.crcExpect := rfl
@[simp] theorem State.setPhase_waitMs (s : State) (v : Phase) : (s.setPhase v).waitMs = s.waitMs := rfl
@[simp] theorem State.setPhase_phase (s : State) (v : Phase) : (s.setPhase v).phase = v := rfl
@[simp] theorem State.setPhase_snap (s : State) (v : Phase) : (s.setPhase v).snap = s.snap := rfl
@[simp] theorem State.setPhase_cnt (s : State) (v : Phase) : (s.setPhase v).cnt = s.cnt := rfl
@[simp] theorem State.setPhase_rx (s : State) (v : Phase) : (s.setPhase v).rx = s.rx := rfl
@[simp] theorem State.setPhase_bus (s : State) (v : Phase) : (s.setPhase v).bus = s.bus := rfl
@[simp] theorem State.setPhase_env (s : State) (v : Phase) : (s.setPhase v).env = s.env := rfl

@[simp] theorem State.setSnap_ie (s : State) (v : Snapshot) : (s.setSnap v).ie = s.ie := rfl
@[simp] theorem State.setSnap_cmd (s : State) (v : Snapshot) : (s.setSnap v).cmd = s.cmd := rfl
@[simp] theorem State.setSnap_status (s : State) (v : Snapshot) : (s.setSnap v).status = s.status := rfl
@[simp] theorem State.setSnap_taddr (s : State) (v : Snapshot) : (s.setSnap v).taddr = s.taddr := rfl
@[simp] theorem State.setSnap_payload0 (s : State) (v : Snapshot) : (s.setSnap v).payload0 = s.payload0 := rfl
@[simp] theorem State.setSnap_payload1 (s : State) (v : Snapshot) : (s.setSnap v).payload1 = s.payload1 := rfl
@[simp] theorem State.setSnap_result0 (s : State) (v : Snapshot) : (s.setSnap v).result0 = s.result0 := rfl
@[simp] theorem State.setSnap_result1 (s : State) (v : Snapshot) : (s.setSnap v).result1 = s.result1 := rfl
@[simp] theorem State.setSnap_result2 (s : State) (v : Snapshot) : (s.setSnap v).result2 = s.result2 := rfl
@[simp] theorem State.setSnap_crcData (s : State) (v : Snapshot) : (s.setSnap v).crcData = s.crcData := rfl
@[simp] theorem State.setSnap_crcExpect (s : State) (v : Snapshot) : (s.setSnap v).crcExpect = s.crcExpect := rfl
@[simp] theorem State.setSnap_waitMs (s : State) (v : Snapshot) : (s.setSnap v).waitMs = s.waitMs := rfl
@[simp] theorem State.setSnap_phase (s : State) (v : Snapshot) : (s.setSnap v).phase = s.phase := rfl
@[simp] theorem State.setSnap_snap (s : State) (v : Snapshot) : (s.setSnap v).snap = v := rfl
@[simp] theorem State.setSnap_cnt (s : State) (v : Snapshot) : (s.setSnap v).cnt = s.cnt := rfl
@[simp] theorem State.setSnap_rx (s : State) (v : Snapshot) : (s.setSnap v).rx = s.rx := rfl
@[simp] theorem State.setSnap_bus (s : State) (v : Snapshot) : (s.setSnap v).bus = s.bus := rfl
@[simp] theorem State.setSnap_env (s : State) (v : Snapshot) : (s.setSnap v).env = s.env := rfl

@[simp] theorem State.setCnt_ie (s : State) (v : BitVec 17) : (s.setCnt v).ie = s.ie := rfl
@[simp] theorem State.setCnt_cmd (s : State) (v : BitVec 17) : (s.setCnt v).cmd = s.cmd := rfl
@[simp] theorem State.setCnt_status (s : State) (v : BitVec 17) : (s.setCnt v).status = s.status := rfl
@[simp] theorem State.setCnt_taddr (s : State) (v : BitVec 17) : (s.setCnt v).taddr = s.taddr := rfl
@[simp] theorem State.setCnt_payload0 (s : State) (v : BitVec 17) : (s.setCnt v).payload0 = s.payload0 := rfl
@[simp] theorem State.setCnt_payload1 (s : State) (v : BitVec 17) : (s.setCnt v).payload1 = s.payload1 := rfl
@[simp] theorem State.setCnt_result0 (s : State) (v : BitVec 17) : (s.setCnt v).result0 = s.result0 := rfl
@[simp] theorem State.setCnt_result1 (s : State) (v : BitVec 17) : (s.setCnt v).result1 = s.result1 := rfl
@[simp] theorem State.setCnt_result2 (s : State) (v : BitVec 17) : (s.setCnt v).result2 = s.result2 := rfl
@[simp] theorem State.setCnt_crcData (s : State) (v : BitVec 17) : (s.setCnt v).crcData = s.crcData := rfl
@[simp] theorem State.setCnt_crcExpect (s : State) (v : BitVec 17) : (s.setCnt v).crcExpect = s.crcExpect := rfl
@[simp] theorem State.setCnt_waitMs (s : State) (v : BitVec 17) : (s.setCnt v).waitMs = s.waitMs := rfl
@[simp] theorem State.setCnt_phase (s : State) (v : BitVec 17) : (s.setCnt v).phase = s.phase := rfl
@[simp] theorem State.setCnt_snap (s : State) (v : BitVec 17) : (s.setCnt v).snap = s.snap := rfl
@[simp] theorem State.setCnt_cnt (s : State) (v : BitVec 17) : (s.setCnt v).cnt = v := rfl
@[simp] theorem State.setCnt_rx (s : State) (v : BitVec 17) : (s.setCnt v).rx = s.rx := rfl
@[simp] theorem State.setCnt_bus (s : State) (v : BitVec 17) : (s.setCnt v).bus = s.bus := rfl
@[simp] theorem State.setCnt_env (s : State) (v : BitVec 17) : (s.setCnt v).env = s.env := rfl

@[simp] theorem State.setRx_ie (s : State) (v : List Byte) : (s.setRx v).ie = s.ie := rfl
@[simp] theorem State.setRx_cmd (s : State) (v : List Byte) : (s.setRx v).cmd = s.cmd := rfl
@[simp] theorem State.setRx_status (s : State) (v : List Byte) : (s.setRx v).status = s.status := rfl
@[simp] theorem State.setRx_taddr (s : State) (v : List Byte) : (s.setRx v).taddr = s.taddr := rfl
@[simp] theorem State.setRx_payload0 (s : State) (v : List Byte) : (s.setRx v).payload0 = s.payload0 := rfl
@[simp] theorem State.setRx_payload1 (s : State) (v : List Byte) : (s.setRx v).payload1 = s.payload1 := rfl
@[simp] theorem State.setRx_result0 (s : State) (v : List Byte) : (s.setRx v).result0 = s.result0 := rfl
@[simp] theorem State.setRx_result1 (s : State) (v : List Byte) : (s.setRx v).result1 = s.result1 := rfl
@[simp] theorem State.setRx_result2 (s : State) (v : List Byte) : (s.setRx v).result2 = s.result2 := rfl
@[simp] theorem State.setRx_crcData (s : State) (v : List Byte) : (s.setRx v).crcData = s.crcData := rfl
@[simp] theorem State.setRx_crcExpect (s : State) (v : List Byte) : (s.setRx v).crcExpect = s.crcExpect := rfl
@[simp] theorem State.setRx_waitMs (s : State) (v : List Byte) : (s.setRx v).waitMs = s.waitMs := rfl
@[simp] theorem State.setRx_phase (s : State) (v : List Byte) : (s.setRx v).phase = s.phase := rfl
@[simp] theorem State.setRx_snap (s : State) (v : List Byte) : (s.setRx v).snap = s.snap := rfl
@[simp] theorem State.setRx_cnt (s : State) (v : List Byte) : (s.setRx v).cnt = s.cnt := rfl
@[simp] theorem State.setRx_rx (s : State) (v : List Byte) : (s.setRx v).rx = v := rfl
@[simp] theorem State.setRx_bus (s : State) (v : List Byte) : (s.setRx v).bus = s.bus := rfl
@[simp] theorem State.setRx_env (s : State) (v : List Byte) : (s.setRx v).env = s.env := rfl

@[simp] theorem State.setBus_ie (s : State) (v : Option BusTxn) : (s.setBus v).ie = s.ie := rfl
@[simp] theorem State.setBus_cmd (s : State) (v : Option BusTxn) : (s.setBus v).cmd = s.cmd := rfl
@[simp] theorem State.setBus_status (s : State) (v : Option BusTxn) : (s.setBus v).status = s.status := rfl
@[simp] theorem State.setBus_taddr (s : State) (v : Option BusTxn) : (s.setBus v).taddr = s.taddr := rfl
@[simp] theorem State.setBus_payload0 (s : State) (v : Option BusTxn) : (s.setBus v).payload0 = s.payload0 := rfl
@[simp] theorem State.setBus_payload1 (s : State) (v : Option BusTxn) : (s.setBus v).payload1 = s.payload1 := rfl
@[simp] theorem State.setBus_result0 (s : State) (v : Option BusTxn) : (s.setBus v).result0 = s.result0 := rfl
@[simp] theorem State.setBus_result1 (s : State) (v : Option BusTxn) : (s.setBus v).result1 = s.result1 := rfl
@[simp] theorem State.setBus_result2 (s : State) (v : Option BusTxn) : (s.setBus v).result2 = s.result2 := rfl
@[simp] theorem State.setBus_crcData (s : State) (v : Option BusTxn) : (s.setBus v).crcData = s.crcData := rfl
@[simp] theorem State.setBus_crcExpect (s : State) (v : Option BusTxn) : (s.setBus v).crcExpect = s.crcExpect := rfl
@[simp] theorem State.setBus_waitMs (s : State) (v : Option BusTxn) : (s.setBus v).waitMs = s.waitMs := rfl
@[simp] theorem State.setBus_phase (s : State) (v : Option BusTxn) : (s.setBus v).phase = s.phase := rfl
@[simp] theorem State.setBus_snap (s : State) (v : Option BusTxn) : (s.setBus v).snap = s.snap := rfl
@[simp] theorem State.setBus_cnt (s : State) (v : Option BusTxn) : (s.setBus v).cnt = s.cnt := rfl
@[simp] theorem State.setBus_rx (s : State) (v : Option BusTxn) : (s.setBus v).rx = s.rx := rfl
@[simp] theorem State.setBus_bus (s : State) (v : Option BusTxn) : (s.setBus v).bus = v := rfl
@[simp] theorem State.setBus_env (s : State) (v : Option BusTxn) : (s.setBus v).env = s.env := rfl

@[simp] theorem State.setEnv_ie (s : State) (v : Env) : (s.setEnv v).ie = s.ie := rfl
@[simp] theorem State.setEnv_cmd (s : State) (v : Env) : (s.setEnv v).cmd = s.cmd := rfl
@[simp] theorem State.setEnv_status (s : State) (v : Env) : (s.setEnv v).status = s.status := rfl
@[simp] theorem State.setEnv_taddr (s : State) (v : Env) : (s.setEnv v).taddr = s.taddr := rfl
@[simp] theorem State.setEnv_payload0 (s : State) (v : Env) : (s.setEnv v).payload0 = s.payload0 := rfl
@[simp] theorem State.setEnv_payload1 (s : State) (v : Env) : (s.setEnv v).payload1 = s.payload1 := rfl
@[simp] theorem State.setEnv_result0 (s : State) (v : Env) : (s.setEnv v).result0 = s.result0 := rfl
@[simp] theorem State.setEnv_result1 (s : State) (v : Env) : (s.setEnv v).result1 = s.result1 := rfl
@[simp] theorem State.setEnv_result2 (s : State) (v : Env) : (s.setEnv v).result2 = s.result2 := rfl
@[simp] theorem State.setEnv_crcData (s : State) (v : Env) : (s.setEnv v).crcData = s.crcData := rfl
@[simp] theorem State.setEnv_crcExpect (s : State) (v : Env) : (s.setEnv v).crcExpect = s.crcExpect := rfl
@[simp] theorem State.setEnv_waitMs (s : State) (v : Env) : (s.setEnv v).waitMs = s.waitMs := rfl
@[simp] theorem State.setEnv_phase (s : State) (v : Env) : (s.setEnv v).phase = s.phase := rfl
@[simp] theorem State.setEnv_snap (s : State) (v : Env) : (s.setEnv v).snap = s.snap := rfl
@[simp] theorem State.setEnv_cnt (s : State) (v : Env) : (s.setEnv v).cnt = s.cnt := rfl
@[simp] theorem State.setEnv_rx (s : State) (v : Env) : (s.setEnv v).rx = s.rx := rfl
@[simp] theorem State.setEnv_bus (s : State) (v : Env) : (s.setEnv v).bus = s.bus := rfl
@[simp] theorem State.setEnv_env (s : State) (v : Env) : (s.setEnv v).env = v := rfl

end Sys2Proof.Machine
end

