-- ==== Sys2Proof/Laws/Ops.lean ====
section
/-! SUPPORT. For each shared operation, one equation a case that says everything it does; provers cite these instead of
unfolding the operation. -/

namespace Sys2Proof.Machine

/-- Completion with an error delivers nothing (R89). -/
theorem complete_error {err : ErrKind} (h : err ≠ .none) (ioRd : Bool) (m : BitVec 3) (ws : List Half) (s : State) :
    complete err ioRd m ws s =
      { s with
        status := ⟨false, true, err, s.status.resValid, s.status.resCount, ioRd, m, s.status.ovr⟩
        phase := .idle } := by
  simp [complete, Status.completed, h, State.setStatus, State.setPhase]

/-- Completion with NONE delivers the words (R88, R89). -/
theorem complete_none (ioRd : Bool) (m : BitVec 3) (ws : List Half) (s : State) :
    complete .none ioRd m ws s =
      { s with
        status := ⟨false, true, .none, true, Fin.ofNat 4 ws.length, ioRd, m, s.status.ovr⟩
        result0 := ws.getD 0 s.result0
        result1 := ws.getD 1 s.result1
        result2 := ws.getD 2 s.result2
        phase := .idle } := rfl

/-- An acknowledgement clears DONE and OVR where the written bit is 1, and nothing else (R19, R99). -/
theorem acknowledge_eq (v : Word) (s : State) :
    acknowledge v s =
      { s with status := { s.status with
          done := s.status.done && !v.getLsbD 1
          ovr := s.status.ovr && !v.getLsbD 11 } } := rfl

/-- A CMD write while BUSY = 1 only sets OVR (R83). -/
theorem commandWrite_busy {s : State} (h : s.status.busy = true) (c : BitVec 4) :
    commandWrite c s = { s with status := { s.status with ovr := true } } := by
  simp [commandWrite, h, State.setStatus, Status.overrun]

/-- An accepted CMD write of a legal index (R80, R81). -/
theorem commandWrite_legal {s : State} (h : s.status.busy = false) (c : Fin 10) :
    commandWrite (BitVec.ofNat 4 c.val) s =
      { s with
        cmd := BitVec.ofNat 4 c.val
        status := ⟨true, false, .none, false, 0, false, 0#3, s.status.ovr⟩
        result0 := 0#16
        result1 := 0#16
        result2 := 0#16
        snap := takeSnapshot c s
        cnt := 0#17
        rx := []
        phase := .write
        bus := some (.write s.taddr (txFrame (takeSnapshot c s))) } := by
  have hc : (BitVec.ofNat 4 c.val).toNat = c.val := by
    have := c.isLt
    simp only [BitVec.toNat_ofNat]; omega
  have hlt : (BitVec.ofNat 4 c.val).toNat < 10 := by rw [hc]; exact c.isLt
  have hcc : (⟨(BitVec.ofNat 4 c.val).toNat, hlt⟩ : Fin 10) = c := Fin.ext hc
  rw [commandWrite, h, startCommand, dif_pos hlt, hcc]
  simp only [Bool.false_eq_true, if_false, launch, acceptCommand, Status.started, Status.cleared, State.setSnap,
    State.setCnt, State.setRx, State.setPhase, State.setStatus, State.setBus, State.setCmd, State.setResults, h]
  rfl

/-- An accepted CMD write of an illegal index completes at once (R82). -/
theorem commandWrite_illegal {s : State} (h : s.status.busy = false) {c : BitVec 4} (hc : 10 ≤ c.toNat) :
    commandWrite c s =
      { s with
        cmd := c
        status := ⟨false, true, .illegal, false, 0, false, 0#3, s.status.ovr⟩
        result0 := 0#16
        result1 := 0#16
        result2 := 0#16
        phase := .idle } := by
  have hn : ¬c.toNat < 10 := by omega
  rw [commandWrite, h, startCommand, dif_neg hn, complete_error (by decide)]
  rfl

/-- Every CMD index is a legal one or is at least 10. -/
theorem cmd_cases (c : BitVec 4) : (∃ d : Fin 10, c = BitVec.ofNat 4 d.val) ∨ 10 ≤ c.toNat := by
  revert c; decide

/-- The write was refused by the target: the command completes with IO_ERROR (R84). -/
theorem writeResp_fail (s : State) :
    writeResp .fail s =
      { s with
        status := ⟨false, true, .io, s.status.resValid, s.status.resCount, false, 0#3, s.status.ovr⟩
        phase := .idle
        bus := none } := by
  simp [writeResp, complete_error, State.setBus]

/-- A write-only command completes when its write returns (R84). -/
theorem writeResp_ok_writeOnly {s : State} (h : s.snap.nreply = 0) :
    writeResp .ok s =
      { s with
        status := ⟨false, true, .none, true, 0, false, 0#3, s.status.ovr⟩
        phase := .idle
        bus := none } := by
  simp [writeResp, h, complete_none, State.setBus]

/-- A read command goes on to its wait (R84). -/
theorem writeResp_ok_read {s : State} (h : s.snap.nreply ≠ 0) :
    writeResp .ok s = { s with phase := .wait, cnt := 0#17, bus := none } := by
  simp [writeResp, h, State.setBus, State.setPhase, State.setCnt]

/-- A tick that does not end the wait (R85). -/
theorem waitTick_more {s : State} (h : (s.cnt + 1#17).toNat < s.snap.wait.toNat + 1) :
    waitTick s = { s with cnt := s.cnt + 1#17 } := by
  have hn : ¬(s.cnt + 1#17).toNat ≥ s.snap.wait.toNat + 1 := by omega
  simp only [waitTick, State.setCnt]
  exact if_neg hn

/-- The tick that ends the wait issues the read (R85). -/
theorem waitTick_last {s : State} (h : s.snap.wait.toNat + 1 ≤ (s.cnt + 1#17).toNat) :
    waitTick s =
      { s with
        cnt := s.cnt + 1#17
        phase := .read
        bus := some (.read s.snap.taddr (rxLength s.snap)) } := by
  simp only [waitTick, State.setCnt]
  exact if_pos h

/-- The read failed, or its length is wrong (R40, R86). -/
theorem readResp_bad {s : State} {a : ReadAnswer} (h : ∀ bs, a = .ok bs → bs.length ≠ rxLength s.snap) :
    readResp a s =
      { s with
        status := ⟨false, true, .io, s.status.resValid, s.status.resCount, true, 0#3, s.status.ovr⟩
        phase := .idle
        bus := none } := by
  cases a with
  | fail => simp [readResp, complete_error, State.setBus]
  | ok bs => simp [readResp, complete_error, State.setBus, h bs rfl]

/-- A reply of the right length goes to CHECK (R86). -/
theorem readResp_ok {s : State} {bs : List Byte} (h : bs.length = rxLength s.snap) :
    readResp (.ok bs) s = { s with rx := bs, phase := .check, bus := none } := by
  simp [readResp, h, State.setBus, State.setRx, State.setPhase]

/-- CHECK with a failing group: PROTOCOL_ERROR, no word delivered (R87). -/
theorem checkStep_fail {s : State} (h : crcFailMask s.rx s.snap.nreply.val ≠ 0#3) :
    checkStep s =
      { s with
        status := ⟨false, true, .protocol, s.status.resValid, s.status.resCount, false,
          crcFailMask s.rx s.snap.nreply.val, s.status.ovr⟩
        phase := .idle } := by
  simp [checkStep, h, complete_error]

/-- CHECK with no failing group: every word delivered (R87, R88). -/
theorem checkStep_ok {s : State} (h : crcFailMask s.rx s.snap.nreply.val = 0#3) :
    checkStep s =
      { s with
        status := ⟨false, true, .none, true, s.snap.nreply, false, 0#3, s.status.ovr⟩
        result0 := (replyWords s.rx s.snap.nreply.val).getD 0 s.result0
        result1 := (replyWords s.rx s.snap.nreply.val).getD 1 s.result1
        result2 := (replyWords s.rx s.snap.nreply.val).getD 2 s.result2
        phase := .idle } := by
  simp [checkStep, h, complete_none, replyWords]

/-- Bit `k` of the mask (R87). -/
theorem crcFailMask_getLsbD (r : List Byte) (n k : Nat) (hk : k < 3) :
    (crcFailMask r n).getLsbD k = groupFails r n k := by
  have hk' : k = 0 ∨ k = 1 ∨ k = 2 := by omega
  rcases hk' with rfl | rfl | rfl <;>
    simp only [crcFailMask] <;>
    generalize groupFails r n 0 = a <;> generalize groupFails r n 1 = b <;> generalize groupFails r n 2 = c <;>
    revert a b c <;> decide

/-- The mask is zero exactly when no group fails (R87). -/
theorem crcFailMask_eq_zero_iff (r : List Byte) (n : Nat) :
    crcFailMask r n = 0#3 ↔ ∀ k < 3, groupFails r n k = false := by
  constructor
  · intro h k hk
    rw [← crcFailMask_getLsbD r n k hk, h, BitVec.getLsbD_zero]
  · intro h
    simp [crcFailMask, h 0 (by decide), h 1 (by decide), h 2 (by decide)]

@[simp] theorem replyWords_length (r : List Byte) (n : Nat) : (replyWords r n).length = n := by
  simp [replyWords]

theorem replyWords_getD (r : List Byte) (n k : Nat) (d : Half) :
    (replyWords r n).getD k d = if k < n then dec (groupAt r k) else d := by
  by_cases h : k < n <;> simp [replyWords, List.getD_eq_getElem?_getD, h]

/-- WAIT_MS is a table: a write changes its own entry (R26). -/
theorem setWaitMs_get (s : State) (c d : Fin 10) (v : Half) :
    (s.setWaitMs c v).waitMs.get d = if d = c then v else s.waitMs.get d := by
  simp [Vector.get_eq_getElem, Vector.getElem_set, Fin.ext_iff, eq_comm]

/-- The meaning of every command is the CMD write of its index. -/
theorem exec_commandOf (c : BitVec 4) (s : State) : exec (commandOf c) s = .next (commandWrite c s) := by
  have h : c = 0#4 ∨ c = 1#4 ∨ c = 2#4 ∨ c = 3#4 ∨ c = 4#4 ∨ c = 5#4 ∨ c = 6#4 ∨ c = 7#4 ∨ c = 8#4 ∨ c = 9#4 ∨ c = 10#4
      ∨ c = 11#4 ∨ c = 12#4 ∨ c = 13#4 ∨ c = 14#4 ∨ c = 15#4 := by
    revert c; decide
  rcases h with rfl | rfl | rfl | rfl | rfl | rfl | rfl | rfl | rfl | rfl | rfl | rfl | rfl | rfl | rfl | rfl <;> rfl

end Sys2Proof.Machine
end

