-- ==== Sys2Proof/Laws/Invariant.lean ====
section
/-! SUPPORT. Small facts about the invariant: it does not see the environment, and what it says of a running and of an
idle engine. -/

namespace Sys2Proof.Machine

/-- The invariant speaks of no environment field. -/
theorem Inv.setEnv {s : State} (h : Inv s) (v : Env) : Inv (s.setEnv v) := by
  obtain ⟨⟨a1, a2, a3, a4, a5, a6⟩, b, c, ⟨d1, d2, d3, d4⟩, ⟨e1, e2, e3, e4, e5, e6, e7, e8⟩⟩ := h
  exact ⟨⟨a1, a2, a3, a4, a5, a6⟩, b, c, ⟨d1, d2, d3, d4⟩, ⟨e1, e2, e3, e4, e5, e6, e7, e8⟩⟩

theorem Inv.place {s : State} (h : Inv s) (es : List Event) : Inv (s.place es) := h.setEnv _

/-- A legal index names one command. -/
theorem cmdIndex_inj {c d : Fin 10} (h : BitVec.ofNat 4 c.val = BitVec.ofNat 4 d.val) : c = d := by
  revert c d; decide

/-- While BUSY = 0 the engine is in IDLE with nothing outstanding (R19, R28). -/
theorem Inv.idle {s : State} (h : Inv s) (hb : s.status.busy = false) : s.phase = .idle ∧ s.bus = none := by
  have hp : s.phase = .idle := by
    by_contra hp
    rw [h.status.busy_iff_phase.mpr hp] at hb
    cases hb
  have hbus := h.bus
  simp only [BusInv, hp] at hbus
  exact ⟨hp, hbus⟩

/-- Outside IDLE the completion record and the results are clear (R80). -/
theorem Inv.running {s : State} (h : Inv s) (hp : s.phase ≠ .idle) :
    s.status = ⟨true, false, .none, false, 0, false, 0#3, s.status.ovr⟩ ∧ ∀ k, s.result k = 0#16 := by
  have hb := h.status.busy_iff_phase.mpr hp
  have hd := h.status.busy_not_done hb
  obtain ⟨h1, h2, h3, h4⟩ := h.record.busy_clear hb
  have hc := h.record.invalid_count h2
  refine ⟨?_, fun k => h.record.result_zero k (by rw [hc]; exact Nat.zero_le k)⟩
  cases hs : s.status
  simp_all

end Sys2Proof.Machine
end

