-- ==== Sys2Proof/Laws/PerInstr.lean ====
section
/-! SUPPORT. Facts about every instruction as syntax, one lemma a constructor. -/

/-- An instruction's encoding is a legal host access: 32 bits wide, aligned and at a mapped offset (R32, R47, R65). -/
def Sys2Proof.Laws.EncodedAccess.Statement (i : Sys2Proof.Instr) : Prop := (Sys2Proof.encode i).wellFormed = true

namespace Sys2Proof.Laws.EncodedAccess

theorem init : Statement .init := rfl
theorem measureIaq : Statement .measureIaq := rfl
theorem getBaseline : Statement .getBaseline := rfl
theorem setBaseline : Statement .setBaseline := rfl
theorem setAbsHumidity : Statement .setAbsHumidity := rfl
theorem selfTest : Statement .selfTest := rfl
theorem getFeatureSet : Statement .getFeatureSet := rfl
theorem getTvocInceptiveBaseline : Statement .getTvocInceptiveBaseline := rfl
theorem setTvocBaseline : Statement .setTvocBaseline := rfl
theorem getSerialId : Statement .getSerialId := rfl
theorem illegalA : Statement .illegalA := rfl
theorem illegalB : Statement .illegalB := rfl
theorem illegalC : Statement .illegalC := rfl
theorem illegalD : Statement .illegalD := rfl
theorem illegalE : Statement .illegalE := rfl
theorem illegalF : Statement .illegalF := rfl
theorem crcUnit (op : CrcOp) : Statement (.crcUnit op) := by
  cases op <;> simp [Statement, encode, HostAccess.wr, HostAccess.rd, HostAccess.wellFormed, HostAccess.widthOk,
    HostAccess.alignedOk, HostAccess.mappedOk, Reg.offset]

end Sys2Proof.Laws.EncodedAccess
end

