-- ==== Sys2Proof/Laws/Step.lean ====
section
/-! SUPPORT. What a host access and a step can do, said once; and how runs over placed events unfold. -/

namespace Sys2Proof.Machine

/-- The instruction a register access decodes to has exactly that register's effect (R31, R91). -/
theorem exec_decodeReg_write {r : Reg} {v : Word} {i : Instr} (h : decodeReg r .write v = .ok i) (s : State) :
    exec i s = .next (regWrite r v s) := by
  cases r <;> simp only [decodeReg, Except.ok.injEq, reduceCtorEq] at h <;> subst h
  · exact exec_commandOf _ _
  · rfl
  · rfl

theorem exec_decodeReg_read {r : Reg} {v : Word} {i : Instr} (h : decodeReg r .read v = .ok i) (s : State) :
    exec i s = .next (readRegister r s) := by
  cases r <;> simp only [decodeReg, Except.ok.injEq, reduceCtorEq] at h <;> subst h <;> rfl

/-- A legal host access takes its register's effect; every other access is HostBusError (R31, R32, R95). -/
theorem hostAccess_legal {a : HostAccess} {r : Reg} (hw : a.width = 32) (hr : Reg.ofOffset a.off = some r) (s : State) :
    hostAccess a s = .next (match a.kind with | .read => readRegister r s | .write => regWrite r a.data s) := by
  rw [hostAccess, decode_of_ofOffset hw hr]
  cases hk : a.kind with
  | read =>
    cases hd : decodeReg r .read a.data with
    | ok i => exact exec_decodeReg_read hd s
    | error j => rw [decodeReg_error hd]
  | write =>
    cases hd : decodeReg r .write a.data with
    | ok i => exact exec_decodeReg_write hd s
    | error j => rw [decodeReg_error hd]

theorem hostAccess_illegal {a : HostAccess} (h : a.wellFormed = false) (s : State) :
    hostAccess a s = .fault (.hostBusError a.off) := by
  rw [hostAccess]
  cases hd : decode a with
  | ok i => rw [decode_ok_wellFormed hd] at h; cases h
  | error j =>
    rcases decode_error_cases hd with ⟨-, rfl | rfl | rfl⟩ | ⟨r, hw, hr, -⟩
    · rfl
    · rfl
    · rfl
    · rw [(wellFormed_iff a).mpr ⟨hw, r, hr⟩] at h; cases h

/-- Everything firing an event can do (R91), one constructor a case. -/
inductive Fires (s : State) : Event → Host.Outcome State Fault Refusal → Prop where
  | badAccess (a : HostAccess) (h : a.wellFormed = false) : Fires s (.host a) (.fault (.hostBusError a.off))
  | read (a : HostAccess) (r : Reg) (hk : a.kind = .read) (hw : a.width = 32) (ho : a.off = r.offset) :
      Fires s (.host a) (.next (readRegister r s))
  | write (a : HostAccess) (r : Reg) (hk : a.kind = .write) (hw : a.width = 32) (ho : a.off = r.offset) :
      Fires s (.host a) (.next (regWrite r a.data s))
  | writeAnswer (a : WriteAnswer) :
      Fires s (.busWriteAnswer a) (.next (if s.phase = .write then writeResp a s else s))
  | readAnswer (a : ReadAnswer) :
      Fires s (.busReadAnswer a) (.next (if s.phase = .read then readResp a s else s))
  | tick : Fires s .tick (.next (if s.phase = .wait then waitTick s else s))
  | internal : Fires s .internal (.next (if s.phase = .check then checkStep s else s))
  | reset : Fires s .reset (.next (resetStep s))

theorem fire_fires (e : Event) (s : State) : Fires s e (fire e s) := by
  cases e with
  | host a =>
    by_cases hwf : a.wellFormed = true
    · obtain ⟨hw, r, hr⟩ := (wellFormed_iff a).mp hwf
      have ho := (Reg.offset_ofOffset hr).symm
      have hf : fire (.host a) s = _ := hostAccess_legal hw hr s
      rw [hf]
      cases hk : a.kind with
      | read => exact .read a r hk hw ho
      | write => exact .write a r hk hw ho
    · have hwf' : a.wellFormed = false := by simpa using hwf
      have hf : fire (.host a) s = _ := hostAccess_illegal hwf' s
      rw [hf]
      exact .badAccess a hwf'
  | busWriteAnswer a => exact .writeAnswer a
  | busReadAnswer a => exact .readAnswer a
  | tick => exact .tick
  | internal => exact .internal
  | reset => exact .reset

/-- Everything a step can do: its next event fires on the state with that event taken (R91). -/
theorem step_fires (s : State) : Fires (takeEvent s) (nextEvent s.env) (step s) := fire_fires _ _

@[simp] theorem fire_rd (r : Reg) (s : State) : fire (.host (.rd r)) s = .next (readRegister r s) :=
  hostAccess_legal rfl (Reg.ofOffset_offset r) s

@[simp] theorem fire_wr (r : Reg) (v : Word) (s : State) : fire (.host (.wr r v)) s = .next (regWrite r v s) :=
  hostAccess_legal rfl (Reg.ofOffset_offset r) s

/-! ### Steps over placed events -/

@[simp] theorem place_nil (s : State) : s.place [] = s := rfl

@[simp] theorem place_place (s : State) (es fs : List Event) : (s.place fs).place es = s.place (es ++ fs) := by
  simp [State.place, State.setEnv, List.append_assoc]

@[simp] theorem nextEvent_place (s : State) (e : Event) (es : List Event) :
    nextEvent (s.place (e :: es)).env = e := rfl

@[simp] theorem takeEvent_place (s : State) (e : Event) (es : List Event) :
    takeEvent (s.place (e :: es)) = s.place es := rfl

@[simp] theorem step_place (s : State) (e : Event) (es : List Event) :
    step (s.place (e :: es)) = fire e (s.place es) := rfl

/-- An outcome with `f` applied to its next state. -/
def mapNext (f : State → State) (o : Host.Outcome State Fault Refusal) : Host.Outcome State Fault Refusal :=
  match o with
  | .next t => .next (f t)
  | .fault r => .fault r
  | .refused r => .refused r

/-- The environment's queue plays no part in what a register write does. -/
theorem regWrite_place (r : Reg) (v : Word) (s : State) (es : List Event) :
    regWrite r v (s.place es) = (regWrite r v s).place es := by
  cases r with
  | cmd =>
    simp only [regWrite]
    cases hb : s.status.busy with
    | true =>
      have hb' : (s.place es).status.busy = true := hb
      rw [commandWrite_busy hb', commandWrite_busy hb]; rfl
    | false =>
      have hb' : (s.place es).status.busy = false := hb
      rcases cmd_cases (cmdField v) with ⟨d, hd⟩ | hd
      · rw [hd, commandWrite_legal hb', commandWrite_legal hb]; rfl
      · rw [commandWrite_illegal hb' hd, commandWrite_illegal hb hd]; rfl
  | _ => rfl

/-- The environment's queue plays no part in what an event does. -/
theorem fire_place (e : Event) (s : State) (es : List Event) :
    fire e (s.place es) = mapNext (State.place · es) (fire e s) := by
  cases e with
  | host a =>
    by_cases hwf : a.wellFormed = true
    · obtain ⟨hw, r, hr⟩ := (wellFormed_iff a).mp hwf
      simp only [fire, hostAccess_legal hw hr, mapNext]
      cases a.kind with
      | read => cases r <;> rfl
      | write => simp only [regWrite_place]
    · have hwf' : a.wellFormed = false := by simpa using hwf
      simp only [fire, hostAccess_illegal hwf', mapNext]
  | busWriteAnswer a =>
    simp only [fire, mapNext]
    by_cases hp : s.phase = .write
    · have hp' : (s.place es).phase = .write := hp
      rw [if_pos hp, if_pos hp']
      cases a with
      | fail => rfl
      | ok =>
        by_cases hn : s.snap.nreply = 0
        · have hn' : (s.place es).snap.nreply = 0 := hn
          rw [writeResp_ok_writeOnly hn, writeResp_ok_writeOnly hn']; rfl
        · have hn' : (s.place es).snap.nreply ≠ 0 := hn
          rw [writeResp_ok_read hn, writeResp_ok_read hn']; rfl
    · have hp' : ¬(s.place es).phase = .write := hp
      rw [if_neg hp, if_neg hp']
  | busReadAnswer a =>
    simp only [fire, mapNext]
    by_cases hp : s.phase = .read
    · have hp' : (s.place es).phase = .read := hp
      rw [if_pos hp, if_pos hp']
      cases a with
      | fail => rfl
      | ok bs =>
        by_cases hn : bs.length = rxLength s.snap
        · have hn' : bs.length = rxLength (s.place es).snap := hn
          rw [readResp_ok hn, readResp_ok hn']; rfl
        · rw [readResp_bad (s := s) (by rintro _ ⟨⟩; exact hn),
            readResp_bad (s := s.place es) (by rintro _ ⟨⟩; exact hn)]; rfl
    · have hp' : ¬(s.place es).phase = .read := hp
      rw [if_neg hp, if_neg hp']
  | tick =>
    simp only [fire, mapNext]
    by_cases hp : s.phase = .wait
    · have hp' : (s.place es).phase = .wait := hp
      rw [if_pos hp, if_pos hp']
      by_cases hn : s.snap.wait.toNat + 1 ≤ (s.cnt + 1#17).toNat
      · rw [waitTick_last hn, waitTick_last (s := s.place es) hn]; rfl
      · have hm : (s.cnt + 1#17).toNat < s.snap.wait.toNat + 1 := by omega
        rw [waitTick_more hm, waitTick_more (s := s.place es) hm]; rfl
    · have hp' : ¬(s.place es).phase = .wait := hp
      rw [if_neg hp, if_neg hp']
  | internal =>
    simp only [fire, mapNext]
    by_cases hp : s.phase = .check
    · have hp' : (s.place es).phase = .check := hp
      rw [if_pos hp, if_pos hp']
      by_cases hn : crcFailMask s.rx s.snap.nreply.val = 0#3
      · rw [checkStep_ok hn, checkStep_ok (s := s.place es) hn]; rfl
      · rw [checkStep_fail hn, checkStep_fail (s := s.place es) hn]; rfl
    · have hp' : ¬(s.place es).phase = .check := hp
      rw [if_neg hp, if_neg hp']
  | reset => rfl

/-! ### The environment's events -/

@[simp] theorem Env.eventAt_zero (env : Env) : env.eventAt 0 = nextEvent env := rfl

@[simp] theorem Env.eventAt_succ (env : Env) (n : Nat) : env.eventAt (n + 1) = env.advance.eventAt n := rfl

/-- After the placed events come those of the free rounds. -/
theorem Env.eventAt_inputs (es : List Event) (k : Nat) (rd : Option Word) (n : Nat) :
    (⟨es, k, rd⟩ : Env).eventAt (es.length + n) = (⟨[], k, rd⟩ : Env).eventAt n := by
  induction es with
  | nil => simp
  | cons e es ih =>
    rw [List.length_cons, show es.length + 1 + n = (es.length + n) + 1 by omega]
    exact ih

/-- What the host last read plays no part in which events come. -/
theorem Env.eventAt_readData (env : Env) (rd : Option Word) (n : Nat) :
    ({ env with readData := rd } : Env).eventAt n = env.eventAt n := by
  induction n generalizing env with
  | zero => rfl
  | succ n ih =>
    have h : ({ env with readData := rd } : Env).advance = { env.advance with readData := rd } := by
      simp only [Env.advance]
      cases env.inputs with
      | cons e rest => rfl
      | nil => cases Config.freeBurst env.drawn <;> rfl
    rw [Env.eventAt_succ, h, ih, Env.eventAt_succ]

/-- An event changes nothing of the environment but the value read (R31). -/
theorem fire_env {e : Event} {s t : State} (h : fire e s = .next t) :
    t.env = { s.env with readData := t.env.readData } := by
  have hf := fire_fires e s
  rw [h] at hf
  cases hf with
  | read => rfl
  | write a r =>
    cases r with
    | cmd =>
      simp only [regWrite]
      cases hb : s.status.busy with
      | true => rw [commandWrite_busy hb]
      | false =>
        rcases cmd_cases (cmdField a.data) with ⟨d, hd⟩ | hd
        · rw [hd, commandWrite_legal hb]
        · rw [commandWrite_illegal hb hd]
    | _ => rfl
  | writeAnswer a =>
    split
    · cases a with
      | fail => rw [writeResp_fail]
      | ok =>
        by_cases hn : s.snap.nreply = 0
        · rw [writeResp_ok_writeOnly hn]
        · rw [writeResp_ok_read hn]
    · rfl
  | readAnswer a =>
    split
    · by_cases hb : ∃ bs, a = .ok bs ∧ bs.length = rxLength s.snap
      · obtain ⟨bs, rfl, hl⟩ := hb
        rw [readResp_ok hl]
      · rw [readResp_bad fun bs hbs hl => hb ⟨bs, hbs, hl⟩]
    · rfl
  | tick =>
    split
    · by_cases hn : s.snap.wait.toNat + 1 ≤ (s.cnt + 1#17).toNat
      · rw [waitTick_last hn]
      · rw [waitTick_more (by omega)]
    · rfl
  | internal =>
    split
    · by_cases hn : crcFailMask s.rx s.snap.nreply.val = 0#3
      · rw [checkStep_ok hn]
      · rw [checkStep_fail hn]
    · rfl
  | reset => rfl

/-- The events to come after a step are those that were to come, one later. -/
theorem step_eventAt {s t : State} (h : step s = .next t) (n : Nat) : t.env.eventAt n = s.env.eventAt (n + 1) := by
  rw [fire_env h, Env.eventAt_readData]
  rfl

/-! ### Runs -/

@[simp] theorem runsTo_nil (s t : State) : RunsTo s [] t ↔ s = t := by
  constructor
  · intro h; injection h
  · rintro rfl; rfl

/-- One step of a run (Host/Core.lean). -/
theorem run_succ (M : Host.Core) (k : Nat) (s : M.State) :
    M.run (k + 1) s =
      match M.step s with
      | .next u => M.run k u
      | .fault r => .fault r
      | .refused r => .refused r := rfl

/-- A run over `e :: es` fires `e` and then runs over `es`. -/
theorem runsTo_cons (s t : State) (e : Event) (es : List Event) :
    RunsTo s (e :: es) t ↔ ∃ u, fire e s = .next u ∧ RunsTo u es t := by
  have hs : Host.Core.run Sys2Proof.core (es.length + 1) (s.place (e :: es)) =
      match fire e (s.place es) with
      | .next u => Host.Core.run Sys2Proof.core es.length u
      | .fault r => .fault r
      | .refused r => .refused r := by
    refine (run_succ Sys2Proof.core es.length (s.place (e :: es))).trans ?_
    have hstep : Sys2Proof.core.step (s.place (e :: es)) = fire e (s.place es) := rfl
    rw [hstep]
    cases fire e (s.place es) <;> rfl
  rw [RunsTo, List.length_cons, hs, fire_place]
  cases fire e s with
  | next u => simp [mapNext, RunsTo]
  | fault r => simp [mapNext]
  | refused r => simp [mapNext]

theorem runsTo_append (s t : State) (es fs : List Event) :
    RunsTo s (es ++ fs) t ↔ ∃ u, RunsTo s es u ∧ RunsTo u fs t := by
  induction es generalizing s with
  | nil => simp
  | cons e es ih =>
    simp only [List.cons_append, runsTo_cons, ih]
    constructor
    · rintro ⟨u, hu, v, hv, ht⟩; exact ⟨v, ⟨u, hu, hv⟩, ht⟩
    · rintro ⟨v, ⟨u, hu, hv⟩, ht⟩; exact ⟨u, hu, v, hv, ht⟩

/-- A safe run over `e :: es`. -/
theorem safeRun_cons (q : List Gap) (e : Event) (es : List Event) (s : State) :
    safeRun q (e :: es) s ↔
      eventSafe q e s ∧ (accesses e .write .cmd = true → waitsConservative s)
        ∧ ∃ t, fire e s = .next t ∧ safeRun (gapsAfter q e s t) es t := by
  rw [safeRun]
  cases fire e s <;> simp

/-- What is left of a safe run is a safe run, with the gaps then pending. -/
theorem safeRun_append {q : List Gap} {es fs : List Event} {s : State} (h : safeRun q (es ++ fs) s) :
    ∃ (q' : List Gap) (t : State), RunsTo s es t ∧ safeRun q' fs t := by
  induction es generalizing q s with
  | nil => exact ⟨q, s, (runsTo_nil s s).mpr rfl, h⟩
  | cons e es ih =>
    obtain ⟨-, -, u, hu, hrest⟩ := (safeRun_cons q e (es ++ fs) s).mp h
    obtain ⟨q', t, ht, hs⟩ := ih hrest
    exact ⟨q', t, (runsTo_cons s t e es).mpr ⟨u, hu, ht⟩, hs⟩

/-- WRITE lasts, with its snapshot, until the bus answers or a reset (R79, R81). -/
theorem fire_in_write {s t : State} {e : Event} (hb : s.status.busy = true) (hp : s.phase = .write)
    (ha : ∀ w, e ≠ .busWriteAnswer w) (hr : e ≠ .reset) (h : fire e s = .next t) :
    t.status.busy = true ∧ t.phase = .write ∧ t.snap = s.snap := by
  have hf := fire_fires e s
  rw [h] at hf
  cases hf with
  | read a r hk hw ho => exact ⟨hb, hp, rfl⟩
  | write a r hk hw ho =>
    cases r with
    | cmd => simp only [regWrite, commandWrite_busy hb]; exact ⟨hb, hp, trivial⟩
    | status => simp only [regWrite, acknowledge_eq]; exact ⟨hb, hp, trivial⟩
    | _ => exact ⟨hb, hp, rfl⟩
  | writeAnswer a => exact absurd rfl (ha a)
  | readAnswer a => rw [if_neg (by rw [hp]; decide)]; exact ⟨hb, hp, rfl⟩
  | tick => rw [if_neg (by rw [hp]; decide)]; exact ⟨hb, hp, rfl⟩
  | internal => rw [if_neg (by rw [hp]; decide)]; exact ⟨hb, hp, rfl⟩
  | reset => exact absurd rfl hr

/-- The answer that completes a write-only command with ERR = 0 opens its gap (R112). -/
theorem gapOpened_mem (q : List Gap) {s : State} (hb : s.status.busy = true) (hn : s.snap.nreply = 0) :
    gapOpened s ∈ gapsAfter q (.busWriteAnswer .ok) s (writeResp .ok s) := by
  have ho : opensGap s (writeResp .ok s) = true := by simp [opensGap, writeResp_ok_writeOnly hn, hb, hn]
  rw [gapsAfter, ho]
  simp

/-- A pending gap stays pending, shortened by a tick (R112). -/
theorem mem_gapsAfter {q : List Gap} {g : Gap} (h : g ∈ q) (e : Event) (s t : State) :
    (if e = .tick then g.tick else g) ∈ gapsAfter q e s t := by
  rw [gapsAfter]
  by_cases he : e = .tick
  · simp only [he, if_true]
    exact List.mem_append_right _ (List.mem_map_of_mem h)
  · simp only [he, if_false]
    exact List.mem_append_right _ h

end Sys2Proof.Machine
end

