-- ==== Sys2Proof/Laws/Words.lean ====
section
/-! SUPPORT. The bits of the register words that are put together from fields: STATUS (R19), DESCc (R27) and CRC_CHECK
(R25). -/

namespace Sys2Proof.Machine

/-- Bit `i` of STATUS, field by field from bit 0 up (R19). -/
theorem statusWord_getLsbD (st : Status) (ph : Phase) (i : Nat) :
    (statusWord st ph).getLsbD i =
      if i < 1 then (BitVec.ofBool st.busy).getLsbD i
      else if i - 1 < 1 then (BitVec.ofBool st.done).getLsbD (i - 1)
      else if i - 1 - 1 < 2 then st.err.code.getLsbD (i - 1 - 1)
      else if i - 1 - 1 - 2 < 1 then (BitVec.ofBool st.resValid).getLsbD (i - 1 - 1 - 2)
      else if i - 1 - 1 - 2 - 1 < 2 then (BitVec.ofNat 2 st.resCount.val).getLsbD (i - 1 - 1 - 2 - 1)
      else if i - 1 - 1 - 2 - 1 - 2 < 1 then (BitVec.ofBool st.ioRd).getLsbD (i - 1 - 1 - 2 - 1 - 2)
      else if i - 1 - 1 - 2 - 1 - 2 - 1 < 3 then st.crcFail.getLsbD (i - 1 - 1 - 2 - 1 - 2 - 1)
      else if i - 1 - 1 - 2 - 1 - 2 - 1 - 3 < 1 then (BitVec.ofBool st.ovr).getLsbD (i - 1 - 1 - 2 - 1 - 2 - 1 - 3)
      else if i - 1 - 1 - 2 - 1 - 2 - 1 - 3 - 1 < 3 then ph.code.getLsbD (i - 1 - 1 - 2 - 1 - 2 - 1 - 3 - 1)
      else (0#17).getLsbD (i - 1 - 1 - 2 - 1 - 2 - 1 - 3 - 1 - 3) := by
  simp only [statusWord]
  change @BitVec.getLsbD (17 + 3 + 1 + 3 + 1 + 2 + 1 + 2 + 1 + 1) _ i = _
  simp only [BitVec.getLsbD_append]

/-- Bit `i` of DESCc, field by field from bit 0 up (R27). -/
theorem descWord_getLsbD (c : Fin 10) (i : Nat) :
    (descWord c).getLsbD i =
      if i < 8 then (Config.opcode1 c).getLsbD i
      else if i - 8 < 8 then (Config.opcode0 c).getLsbD (i - 8)
      else if i - 8 - 8 < 2 then (BitVec.ofNat 2 (descriptor c).nreply.val).getLsbD (i - 8 - 8)
      else if i - 8 - 8 - 2 < 2 then (BitVec.ofNat 2 (descriptor c).npay.val).getLsbD (i - 8 - 8 - 2)
      else (0#12).getLsbD (i - 8 - 8 - 2 - 2) := by
  simp only [descWord]
  change @BitVec.getLsbD (12 + 2 + 2 + 8 + 8) _ i = _
  simp only [BitVec.getLsbD_append]

/-- Bit `i` of CRC_CHECK, field by field from bit 0 up (R25). -/
theorem crcCheckWord_getLsbD (s : State) (i : Nat) :
    (crcCheckWord s).getLsbD i =
      if i < 8 then s.crcExpect.getLsbD i
      else if i - 8 < 8 then (crcWord s.crcData).getLsbD (i - 8)
      else (BitVec.ofBool (crcWord s.crcData == s.crcExpect)).getLsbD (i - 8 - 8) := by
  simp only [crcCheckWord, BitVec.getLsbD_setWidth, BitVec.getLsbD_append]
  by_cases h : i < 32
  · simp [h]
  · have h1 : ¬i < 8 := by omega
    have h2 : ¬i - 8 < 8 := by omega
    have h3 : (BitVec.ofBool (crcWord s.crcData == s.crcExpect)).getLsbD (i - 8 - 8) = false :=
      BitVec.getLsbD_of_ge _ _ (by omega)
    simp [h, h1, h2, h3]

end Sys2Proof.Machine
end

