-- ==== Sys2Proof/Machine/HostProgram.lean ====
section
/-! DEFINITION. The host-program notation (30_encoding.md R55 to R57). A host program is no part of SGPSEQ (R14): this
file says which events its statements place. -/

namespace Sys2Proof.Machine

/-- The statement's encoding `(kind, off, data)` as a host access; `POLL` and `DELAY` have none of their own (R56). -/
def stmtEncoding : HostStmt → Option HostAccess
  | .wr off imm => some ⟨.write, 32, off, imm⟩
  | .rd off => some ⟨.read, 32, off, 0#32⟩
  | .poll _ _ _ => none
  | .delay _ => none

/-- The events of a statement (R55, R56). A POLL that reads `reads` times is that many reads, a DELAY of `n` is `n` ticks. -/
def stmtEvents (reads : Nat) : HostStmt → List Event
  | .wr off imm => [.host ⟨.write, 32, off, imm⟩]
  | .rd off => [.host ⟨.read, 32, off, 0#32⟩]
  | .poll off _ _ => List.replicate reads (.host ⟨.read, 32, off, 0#32⟩)
  | .delay n => List.replicate n .tick

/-- Whether a value read ends a POLL: `(v & <mask>) == <val>` (R55). -/
def pollEnds (mask val v : Word) : Bool := v &&& mask == val

/-- The expansions of the pseudo-instructions (R57). -/
def expandPseudo : Pseudo → List HostStmt
  | .exec c => [.wr Reg.cmd.offset c, .poll Reg.status.offset 0x2#32 0x2#32]
  | .ack => [.wr Reg.status.offset 0x2#32]
  | .clrOvr => [.wr Reg.status.offset 0x800#32]
  | .crc w => [.wr Reg.crcData.offset w, .rd Reg.crcCheck.offset]
  | .setWait c ms => [.wr (Reg.waitMs c).offset ms]

end Sys2Proof.Machine
end

