-- ==== Sys2Proof/Tests/Slice0.lean ====
section
/-! SUPPORT. Tests with expected values from the spec (95_test_vectors.md; the examples of 40_crc.md and 41_commands.md),
the ill-formed accesses, the decoding of every row, and a witness for every statement with hypotheses. -/

open Sys2Proof Sys2Proof.Machine Sys2Proof.Claims

namespace Sys2Proof.Tests

/-! ### Ill-formed accesses (R32; 95_test_vectors.md V-S4) -/

theorem test_width_refused : (⟨.write, 16, 0x04, 1#32⟩ : HostAccess).widthOk = false
    ∧ (⟨.write, 16, 0x04, 1#32⟩ : HostAccess).wellFormed = false := by decide

theorem test_misaligned_refused : (⟨.read, 32, 0x02, 0#32⟩ : HostAccess).alignedOk = false
    ∧ (⟨.read, 32, 0x02, 0#32⟩ : HostAccess).wellFormed = false := by decide

theorem test_unmapped_refused : ∀ off ∈ [0x2C, 0x3C, 0x68, 0x7C, 0xA8, 0xFC, 0x100],
    (⟨.read, 32, off, 0#32⟩ : HostAccess).mappedOk = false
      ∧ (⟨.read, 32, off, 0#32⟩ : HostAccess).wellFormed = false := by decide

/-- The offsets of R15 are exactly the mapped ones among the aligned offsets of the window. -/
theorem test_mapped_offsets : ((List.range 64).map (4 * ·)).filter
    (fun off => (⟨.read, 32, off, 0#32⟩ : HostAccess).wellFormed) = mappedOffsets := by decide

/-! ### Decoding (R47 to R49, R65; opcode_table.json) -/

/-- Bits 3:0 written out for every command index, and a word with bits 31:4 set (V-E12). -/
theorem test_decode_commands :
    decodeTableWord 32 0b0000 = some .init ∧ decodeTableWord 32 0b0001 = some .measureIaq
      ∧ decodeTableWord 32 0b0010 = some .getBaseline ∧ decodeTableWord 32 0b0011 = some .setBaseline
      ∧ decodeTableWord 32 0b0100 = some .setAbsHumidity ∧ decodeTableWord 32 0b0101 = some .selfTest
      ∧ decodeTableWord 32 0b0110 = some .getFeatureSet
      ∧ decodeTableWord 32 0b0111 = some .getTvocInceptiveBaseline
      ∧ decodeTableWord 32 0b1000 = some .setTvocBaseline ∧ decodeTableWord 32 0b1001 = some .getSerialId
      ∧ decodeTableWord 32 0xFFFFFFF1 = some .measureIaq := by decide

theorem test_decode_illegal :
    decodeTableWord 32 0b1010 = some .illegalA ∧ decodeTableWord 32 0b1011 = some .illegalB
      ∧ decodeTableWord 32 0b1100 = some .illegalC ∧ decodeTableWord 32 0b1101 = some .illegalD
      ∧ decodeTableWord 32 0b1110 = some .illegalE ∧ decodeTableWord 32 0b1111 = some .illegalF := by decide

/-- P4's triples `(W, 0x24, 0x0000BEEF)`, `(R, 0x28, 0)`, `(W, 0x28, 0x00000092)`, and a read of CRC_DATA. -/
theorem test_decode_crcUnit :
    decode ⟨.write, 32, 0x24, 0x0000BEEF#32⟩ = .ok (.crcUnit (.writeData 0xBEEF#16))
      ∧ decode ⟨.read, 32, 0x28, 0#32⟩ = .ok (.crcUnit .readCheck)
      ∧ decode ⟨.write, 32, 0x28, 0x00000092#32⟩ = .ok (.crcUnit (.writeCheck 0x92#8))
      ∧ decode ⟨.read, 32, 0x24, 0#32⟩ = .ok (.crcUnit .readData)
      ∧ decodeTableWord 41 0x1240000BEEF = some (.crcUnit (.writeData 0xBEEF#16))
      ∧ decodeTableWord 41 0x02800000000 = some (.crcUnit .readCheck) := by decide

theorem test_decode_reject :
    decode ⟨.write, 16, 0x04, 1#32⟩ = .error .badWidth ∧ decode ⟨.read, 32, 0x02, 0#32⟩ = .error .misaligned
      ∧ decode ⟨.read, 32, 0x2C, 0#32⟩ = .error .unmapped
      ∧ decode ⟨.read, 32, 0x04, 0#32⟩ = .error (.plainRegister .cmd) := by decide

/-! ### The CRC (V-C1, V-C2) -/

theorem test_crc_vectors : crc8 [] = 0xFF#8 ∧ crc8 [0xBE#8] = 0x0C#8 ∧ crc8 [0x12#8, 0x34#8] = 0x37#8
    ∧ crc8 [0xEA#8, 0x60#8] = 0xA2#8 ∧ crc8Alt [0xEA#8, 0x60#8] = 0xA2#8 := by decide +kernel

theorem test_single_bit_error : grpOk ⟨0x01#8, 0x90#8, 0x4C#8⟩ = true ∧ grpOk ⟨0x81#8, 0x90#8, 0x4C#8⟩ = false := by
  decide +kernel

/-! ### One step -/

/-- The state after one event, or the state itself where the step does not go on. -/
def after (s : State) (e : Event) : State :=
  match step (s.place [e]) with
  | .next t => t
  | .fault _ => s
  | .refused _ => s

/-- The reset state with the interrupt enabled and a GET_FEATURE_SET in phase `ph`, ten ticks counted. -/
def running (ph : Phase) (rx : List Byte) : State :=
  { State.reset with
    ie := true
    cmd := 6#4
    cnt := 10#17
    status := ⟨true, false, .none, false, 0, false, 0#3, false⟩
    snap := takeSnapshot 6 State.reset
    phase := ph
    rx := rx
    bus := match ph with
      | .idle => none
      | .write => some (.write State.reset.taddr (txFrame (takeSnapshot 6 State.reset)))
      | .wait => none
      | .read => some (.read State.reset.taddr 3)
      | .check => none }

/-- The same once it has completed with ERR = NONE, with the overrun bit set and ADDR written. -/
def finishedOk : State :=
  { running .idle [0x00#8, 0x22#8, 0x65#8] with
    taddr := 0x59#7
    status := ⟨false, true, .none, true, 1, false, 0#3, true⟩
    result0 := 0x0022#16 }

/-- The same once it has completed with an error of the read, or with a failed CRC, and the interrupt is masked. -/
def finishedBad (err : ErrKind) (ioRd : Bool) (m : BitVec 3) : State :=
  { running .idle [] with ie := false, status := ⟨false, true, err, false, 0, ioRd, m, false⟩ }

/-- V-S1. -/
theorem test_reset_values :
    regRead .crcCheck State.reset = 0x8100#32 ∧ regRead .status State.reset = 0#32
      ∧ regRead (.waitMs 2) State.reset = 0x78#32 ∧ regRead (.waitMs 5) State.reset = 0x208#32
      ∧ irq State.reset = false := by decide +kernel

/-- V-E12: STATUS and CMD after `WR CMD, 0xFFFFFFF1`. -/
theorem test_start_status : regRead .status (after State.reset (.host (.wr .cmd 0xFFFFFFF1#32))) = 0x1001#32
    ∧ regRead .cmd (after State.reset (.host (.wr .cmd 0xFFFFFFF1#32))) = 1#32 := by decide +kernel

/-- V-K2: the last six bytes of SET_BASELINE's frame for 0x8A5B, 0x8C2E. -/
theorem test_set_baseline_frame :
    (match (after { State.reset with payload0 := 0x8A5B#16, payload1 := 0x8C2E#16 } (.host (.wr .cmd 3#32))).bus with
      | some (.write _ bs) => bs.drop 2
      | _ => []) = [0x8A#8, 0x5B#8, 0xD8#8, 0x8C#8, 0x2E#8, 0x8F#8] := by decide +kernel

/-- V-E11. -/
theorem test_illegal_status : regRead .status (after State.reset (.host (.wr .cmd 0xA#32))) = 0xE#32
    ∧ regRead .status (after State.reset (.host (.wr .cmd 0xF#32))) = 0xE#32
    ∧ regRead .cmd (after State.reset (.host (.wr .cmd 0xF#32))) = 0xF#32
    ∧ (after State.reset (.host (.wr .cmd 0xF#32))).bus.isNone = true := by decide +kernel

/-- V-E13: an overrun in WRITE. -/
theorem test_overrun_status : regRead .status (after (running .write []) (.host (.wr .cmd 1#32))) = 0x1801#32
    ∧ regRead .cmd (after (running .write []) (.host (.wr .cmd 1#32))) = 6#32 := by decide +kernel

/-- V-E17 and V-E18 on STATUS 0x32 with OVR set. -/
theorem test_acknowledge : regRead .status finishedOk = 0x832#32
    ∧ regRead .status (after finishedOk (.host (.wr .status 0x2#32))) = 0x830#32
    ∧ regRead .status (after finishedOk (.host (.wr .status 0xFFFFFFFF#32))) = 0x30#32 := by decide +kernel

/-- 41_commands.md R71's failing write and R69's success. -/
theorem test_write_answers : regRead .status (after (running .write []) (.busWriteAnswer .fail)) = 0x6#32
    ∧ regRead .status (after (running .write []) (.busWriteAnswer .ok)) = 0x2001#32
    ∧ regRead .status (after { running .write [] with snap := takeSnapshot 0 State.reset } (.busWriteAnswer .ok))
        = 0x12#32 := by decide +kernel

/-- V-W: with WAIT_MS6 = 10 the 10th tick stays in WAIT and the 11th issues the read. -/
theorem test_wait_ticks : (after { running .wait [] with cnt := 9#17 } .tick).phase = .wait
    ∧ (after (running .wait []) .tick).phase = .read := by decide +kernel

/-- P6: IO_ERROR of the read; R40: a reply of the wrong length. -/
theorem test_read_failure : regRead .status (after (running .read []) (.busReadAnswer .fail)) = 0x86#32
    ∧ regRead .status (after (running .read []) (.busReadAnswer (.ok [0x00#8, 0x22#8]))) = 0x86#32
    ∧ (after (running .read []) (.busReadAnswer (.ok [0x00#8, 0x22#8, 0x65#8]))).phase = .check := by decide +kernel

/-- R76: the good and the bad reply of GET_FEATURE_SET. -/
theorem test_check_status : regRead .status (after (running .check [0x00#8, 0x22#8, 0x65#8]) .internal) = 0x32#32
    ∧ regRead .result0 (after (running .check [0x00#8, 0x22#8, 0x65#8]) .internal) = 0x22#32
    ∧ regRead .status (after (running .check [0x00#8, 0x22#8, 0x9B#8]) .internal) = 0x10A#32
    ∧ regRead .result0 (after (running .check [0x00#8, 0x22#8, 0x9B#8]) .internal) = 0#32 := by decide +kernel

/-- V-E8: group 2 of GET_SERIAL_ID fails, groups 0 and 1 are discarded. -/
theorem test_check_mask :
    (after { running .check [0x00#8, 0x00#8, 0x81#8, 0x01#8, 0x23#8, 0xA0#8, 0x45#8, 0x67#8, 0x00#8] with
        snap := takeSnapshot 9 State.reset } .internal).status.crcFail = 0b100#3
      ∧ (after { running .check [0x00#8, 0x00#8, 0x81#8, 0x01#8, 0x23#8, 0xA0#8, 0x45#8, 0x67#8, 0x00#8] with
          snap := takeSnapshot 9 State.reset } .internal).result1 = 0#16 := by decide +kernel

/-- V-C3: CRC_CHECK after the datasheet word and its CRC, and what `WR CRC_CHECK, 0xFFFFFFFF` keeps. -/
theorem test_crc_unit :
    (after { State.reset with crcData := 0xBEEF#16, crcExpect := 0x92#8 } (.host (.rd .crcCheck))).env.readData
        = some 0x19292#32
      ∧ regRead .crcCheck (after { State.reset with crcData := 0xFFFF#16 } (.host (.wr .crcCheck 0xFFFFFFFF#32)))
        = 0xACFF#32 := by decide +kernel

/-- V-S3. -/
theorem test_field_masks : regRead .addr (after State.reset (.host (.wr .addr 0xFFFFFFFF#32))) = 0x7F#32
    ∧ regRead .payload0 (after State.reset (.host (.wr .payload0 0x12345678#32))) = 0x5678#32
    ∧ regRead .result0 (after State.reset (.host (.wr .result0 0xFFFF#32))) = 0#32
    ∧ regRead (.waitMs 0) (after State.reset (.host (.wr (.waitMs 0) 0x12345#32))) = 0x2345#32 := by decide +kernel

/-- V-S4: a 16-bit write at CMD is HostBusError(0x04) and starts nothing. -/
theorem test_host_bus_error :
    step (State.reset.place [.host ⟨.write, 16, 0x04, 1#32⟩]) = .fault (.hostBusError 0x04) := rfl

/-- V-S5: reset in WAIT with IE, OVR and WAIT_MS2 = 200. -/
theorem test_reset_step :
    let s : State := { (running .wait []).setWaitMs 2 200#16 with ie := true, cnt := 50#17 }
    regRead (.waitMs 2) (after s .reset) = 120#32 ∧ regRead .status (after s .reset) = 0#32
      ∧ irq (after s .reset) = false := by decide +kernel

/-- withFetchWord places the table word as the next event. -/
theorem test_with_fetch_word : step (State.reset.withFetchWord 32 6) = exec .getFeatureSet State.reset := rfl

/-- P5's pseudo-instructions, and the triple `(W, 0x04, 0x00000001)` of R56. -/
theorem test_pseudo : expandPseudo (.setWait 5 600#32) = [.wr 0x54 0x258#32]
    ∧ expandPseudo .clrOvr = [.wr 0x08 0x800#32]
    ∧ expandPseudo (.exec 5#32) = [.wr 0x04 5#32, .poll 0x08 2#32 2#32]
    ∧ stmtEncoding (.wr 0x04 1#32) = some ⟨.write, 32, 0x04, 1#32⟩ := by decide

/-- R112 "for the same target": a write-only command to another target leaves the gap of the first one pending. -/
theorem test_gaps_per_target :
    let s : State := { running .write [] with snap := { takeSnapshot 0 State.reset with taddr := 0x59#7 } }
    gapsAfter [⟨5, 0x58#7⟩] (.busWriteAnswer .ok) s (after s (.busWriteAnswer .ok)) = [⟨11, 0x59#7⟩, ⟨5, 0x58#7⟩]
      ∧ gapsAfter [⟨11, 0x59#7⟩, ⟨5, 0x58#7⟩] .tick State.reset State.reset = [⟨10, 0x59#7⟩, ⟨4, 0x58#7⟩] := by
  decide +kernel

/-- R112 with R81 and R117: WAIT_MS0 lowered to 1 in WRITE "applies from the next start", so INIT's gap is still 10 ms,
that is 11 ticks. -/
theorem test_gap_is_that_of_the_start :
    let s : State := { running .write [] with snap := { takeSnapshot 0 State.reset with taddr := 0x58#7 } }
    let lowered := after s (.host (.wr (.waitMs 0) 1#32))
    regRead (.waitMs 0) lowered = 1#32
      ∧ gapsAfter [] (.busWriteAnswer .ok) lowered (after lowered (.busWriteAnswer .ok)) = [⟨11, 0x58#7⟩] := by
  decide +kernel

/-! ### Witnesses: a state and operands that meet every hypothesis of each statement -/

theorem after_next (s : State) (e : Event) (h : ∀ a, e ≠ .host a) : step (s.place [e]) = .next (after s e) := by
  cases e <;> first | rfl | exact absurd rfl (h _)

theorem inv_running (ph : Phase) (rx : List Byte) (es : List Event) (hp : ph ≠ .idle) (hc : ph = .check → rx.length = 3)
    (hn : rx.length ≤ 9) : Inv ((running ph rx).place es) := by
  refine Inv.place ⟨⟨?_, ?_, ?_, ?_, ?_, ?_⟩, ?_, fun _ => ⟨6, rfl, rfl, rfl, rfl, rfl, rfl⟩, ⟨?_, ?_, hc, hn⟩,
    ⟨?_, ?_, ?_, ?_, ?_, ?_, ?_, ?_⟩⟩ es
  · exact ⟨fun _ => hp, fun _ => rfl⟩
  · exact fun _ => rfl
  · exact fun _ => rfl
  · exact fun h => absurd rfl h
  · exact fun h => absurd rfl h
  · intro h; cases h
  · cases ph <;> first | exact absurd rfl hp | rfl
  · intro _
    show (10#17).toNat ≤ (resetWaitMs.get 6).toNat
    decide
  · intro _ h; cases h
  · exact fun _ => ⟨rfl, rfl, rfl, rfl⟩
  · exact fun _ => rfl
  · intro k _
    match k with
    | 0 => rfl
    | 1 => rfl
    | 2 => rfl
    | _ + 3 => rfl
  · simp [running]
  · intro h; cases h
  · intro h; cases h
  · intro h; cases h
  · intro _ _ k _; exact BitVec.getLsbD_zero

theorem inv_finishedOk (es : List Event) : Inv (finishedOk.place es) := by
  refine Inv.place (s := finishedOk) ⟨⟨by decide, by decide, by decide, by decide, by decide, by decide⟩, rfl, fun h => absurd rfl h,
    ⟨by decide, by decide, by decide, by decide⟩, ⟨by decide, by decide, ?_, by decide, by decide, ?_, by decide, ?_⟩⟩ es
  · intro k hk
    match k with
    | 0 => cases hk
    | 1 => rfl
    | 2 => rfl
    | _ + 3 => rfl
  · intro _ c hc
    have : c = 6 := cmdIndex_inj (c := c) (d := 6) hc.symm
    subst this; rfl
  · intro _ _ k _; exact BitVec.getLsbD_zero

theorem inv_finishedBad (es : List Event) : Inv ((finishedBad .io true 0#3).place es) ∧
    Inv ((finishedBad .protocol false 1#3).place es) := by
  constructor
  · refine Inv.place (s := finishedBad .io true 0#3) ⟨⟨by decide, by decide, by decide, by decide, by decide, by decide⟩, rfl, fun h => absurd rfl h,
      ⟨by decide, by decide, by decide, by decide⟩, ⟨by decide, by decide, ?_, by decide, by decide, ?_, by decide, ?_⟩⟩ es
    · intro k _
      match k with
      | 0 => rfl
      | 1 => rfl
      | 2 => rfl
      | _ + 3 => rfl
    · intro h; cases h
    · intro _ _ k _; exact BitVec.getLsbD_zero
  · refine Inv.place (s := finishedBad .protocol false 1#3) ⟨⟨by decide, by decide, by decide, by decide, by decide, by decide⟩, rfl, fun h => absurd rfl h,
      ⟨by decide, by decide, by decide, by decide⟩, ⟨by decide, by decide, ?_, by decide, by decide, ?_, by decide, ?_⟩⟩ es
    · intro k _
      match k with
      | 0 => rfl
      | 1 => rfl
      | 2 => rfl
      | _ + 3 => rfl
    · intro h; cases h
    · intro c hc k hk
      have : c = 6 := cmdIndex_inj (c := c) (d := 6) hc.symm
      subst this
      have hk1 : 1 ≤ k := hk
      show (1#3).getLsbD k = false
      match k with
      | 1 => rfl
      | 2 => rfl
      | k + 3 => exact BitVec.getLsbD_of_ge _ _ (by omega)

theorem witness_CrcDetectsSingleBitErrors : (0 : Nat) < 24 ∧ (23 : Nat) < 24 := by decide

theorem witness_CmdFieldAloneSelectsCommand : (0x1#32).extractLsb' 0 4 = (0xFFFFFFF1#32).extractLsb' 0 4 := by decide

theorem witness_DecodeAndEncodeAgree : (Instr.crcUnit (.writeCheck 0xFF#8)).wellFormed = true
    ∧ decode ⟨.write, 32, 0x28, 0xFFFFFFFF#32⟩ = .ok (.crcUnit (.writeCheck 0xFF#8)) := by decide

theorem witness_StepRunsTheDecodedInstruction :
    nextEvent (State.reset.place [.host ⟨.write, 32, 0x04, 0xF#32⟩]).env = .host ⟨.write, 32, 0x04, 0xF#32⟩
      ∧ decode ⟨.write, 32, 0x04, 0xF#32⟩ = .ok .illegalF ∧ Instr.illegalF.wellFormed = true
      ∧ decodeTableWord 32 0xF = some .illegalF := ⟨rfl, rfl, rfl, rfl⟩

/-- Each condition of R32 broken alone, at the offsets next to the mapped ranges. -/
theorem witness_HostBusErrorExactlyOnIllegalAccess :
    step (State.reset.place [.host ⟨.read, 8, 0x08, 0#32⟩]) = .fault (.hostBusError 0x08)
      ∧ step (State.reset.place [.host ⟨.read, 32, 0x02, 0#32⟩]) = .fault (.hostBusError 0x02)
      ∧ step (State.reset.place [.host ⟨.read, 32, 0x2C, 0#32⟩]) = .fault (.hostBusError 0x2C)
      ∧ step (State.reset.place [.host ⟨.read, 32, 0xA8, 0#32⟩]) = .fault (.hostBusError 0xA8)
      ∧ step (State.reset.place [.host ⟨.read, 32, 0x100, 0#32⟩]) = .fault (.hostBusError 0x100) :=
  ⟨rfl, rfl, rfl, rfl, rfl⟩

/-- Each condition of R32 broken alone, at the offsets next to the mapped ranges. -/
theorem witness_LegalAccessTakesItsRegisterEffect :
    ∀ a ∈ [(⟨.read, 16, 0x00, 0#32⟩ : HostAccess), ⟨.write, 32, 0x01, 0#32⟩, ⟨.read, 32, 0x2C, 0#32⟩, ⟨.read, 32, 0x3C, 0#32⟩,
      ⟨.read, 32, 0x68, 0#32⟩, ⟨.write, 32, 0x7C, 0#32⟩, ⟨.read, 32, 0xA8, 0#32⟩],
      ¬(a.width = 32 ∧ a.off % 4 = 0 ∧ a.off ∈ mappedOffsets) := by decide

theorem witness_ReservedBitsAndReadOnlyRegisters :
    0x12345678#32 &&& writableBits .payload0 = 0xFFFF5678#32 &&& writableBits .payload0
      ∧ writableBits (.desc 9) = 0#32 ∧ writableBits .result0 = 0#32
      ∧ ∃ t, step (State.reset.place [.host ⟨.read, 32, Reg.offset .status, 0#32⟩]) = .next t :=
  ⟨by decide, rfl, rfl, _, rfl⟩

theorem witness_WrittenRegisterReadsBack :
    Reg.addr ∈ [Reg.ctrl, .addr, .payload0, .payload1, .crcData] ∧ (∃ c, Reg.waitMs 9 = .waitMs c)
      ∧ (∃ t, step (State.reset.place [.host ⟨.write, 32, Reg.offset .addr, 0xFFFFFFFF#32⟩]) = .next t)
      ∧ (∃ t, step (State.reset.place [.host ⟨.write, 32, Reg.offset (.waitMs 9), 0xFFFF#32⟩]) = .next t)
      ∧ Reg.payload0 ≠ .addr ∧ ¬(Reg.addr = .crcData ∧ Reg.payload0 = .crcCheck) :=
  ⟨by decide, ⟨9, rfl⟩, ⟨_, rfl⟩, ⟨_, rfl⟩, by decide, by decide⟩

theorem witness_HostReadsAndPlainWritesHaveNoSideEffects :
    (∃ t, step (State.reset.place [.host ⟨.read, 32, Reg.offset .result2, 0#32⟩]) = .next t)
      ∧ Reg.ctrl ≠ .cmd ∧ Reg.ctrl ≠ .status
      ∧ (∃ t, step (State.reset.place [.host ⟨.write, 32, Reg.offset .ctrl, 1#32⟩]) = .next t)
      ∧ Reg.ctrl ≠ .crcCheck ∧ Reg.crcData ≠ .crcCheck
      ∧ Reg.crcCheck ≠ .ctrl ∧ ¬(Reg.ctrl = .crcData ∧ Reg.crcCheck = .crcCheck)
      ∧ Reg.ctrl ≠ .crcData ∧ ¬(Reg.crcData = .crcData ∧ Reg.ctrl = .crcCheck)
      ∧ (∃ t, step (State.reset.place [.host ⟨.write, 32, Reg.offset .crcData, 0xFFFF#32⟩]) = .next t)
      ∧ Reg.status ≠ .cmd
      ∧ ∃ t, step (finishedOk.place [.host ⟨.write, 32, Reg.offset .status, 2#32⟩]) = .next t :=
  ⟨⟨_, rfl⟩, by decide, by decide, ⟨_, rfl⟩, by decide, by decide, by decide, by decide, by decide, by decide, ⟨_, rfl⟩,
    by decide, _, rfl⟩

theorem witness_AcceptedCmdWriteStartsTheCommand : State.reset.status.busy = false
    ∧ (0xFFFFFFF9#32).extractLsb' 0 4 = BitVec.ofNat 4 (9 : Fin 10).val
    ∧ (0x0#32).extractLsb' 0 4 = BitVec.ofNat 4 (0 : Fin 10).val
    ∧ 10 ≤ ((0xA#32).extractLsb' 0 4).toNat ∧ 10 ≤ ((0xF#32).extractLsb' 0 4).toNat := by decide

theorem witness_WriteOnlyCommandsStart : State.reset.status.busy = false ∧ finishedOk.status.busy = false := by decide

theorem witness_ReadCommandsStart : State.reset.status.busy = false ∧ finishedOk.status.busy = false := by decide

theorem witness_IllegalIndicesCompleteAtOnce : State.reset.status.busy = false
    ∧ (Instr.illegalA, 0xA#4) ∈ illegalCommands ∧ (Instr.illegalF, 0xF#4) ∈ illegalCommands := by decide

theorem witness_BusyCmdWriteOnlySetsOverrun : (running .write []).status.busy = true
    ∧ ∃ t, step (finishedOk.place [.host (.wr .status 0x800#32)]) = .next t ∧ t.status.ovr = false
      ∧ finishedOk.status.ovr = true := ⟨rfl, _, rfl, rfl, rfl⟩

theorem witness_WriteAnswerEndsOrBeginsTheWait : (running .write []).phase = .write
    ∧ (running .write []).snap.nreply ≠ 0
    ∧ { running .write [] with snap := takeSnapshot 8 State.reset }.snap.nreply = 0 := ⟨rfl, by decide, rfl⟩

theorem witness_WaitTakesWaitPlusOneTicks :
    let s : State := { running .wait [] with cnt := 0#17 }
    s.phase = .wait ∧ s.cnt = 0#17 ∧ 0 ≤ s.snap.wait.toNat ∧ 10 ≤ s.snap.wait.toNat ∧ State.reset.phase ≠ .wait
      ∧ (0 : Nat) < 1 := by decide +kernel

theorem witness_ReadAnswerFailsOrGoesToCheck : (running .read []).phase = .read
    ∧ (∀ bs, ReadAnswer.fail = .ok bs → bs.length ≠ 3 * (running .read []).snap.nreply.val)
    ∧ [0x00#8, 0x22#8].length ≠ 3 * (running .read []).snap.nreply.val
    ∧ [0x00#8, 0x22#8, 0x65#8].length = 3 * (running .read []).snap.nreply.val :=
  ⟨rfl, fun _ h => (nomatch h), by decide, rfl⟩

theorem witness_CheckIsAllOrNothing :
    let good := running .check [0x00#8, 0x22#8, 0x65#8]
    let bad := running .check [0x00#8, 0x22#8, 0x9B#8]
    good.phase = .check ∧ good.rx.length = 3 * good.snap.nreply.val ∧ (∀ k < good.snap.nreply.val, groupGood good.rx k)
      ∧ bad.phase = .check ∧ bad.rx.length = 3 * bad.snap.nreply.val
      ∧ ∃ k < bad.snap.nreply.val, ¬groupGood bad.rx k := by
  refine ⟨rfl, rfl, ?_, rfl, rfl, 0, by decide, ?_⟩ <;> simp only [groupGood] <;> decide +kernel

/-- The longest reply, and the shortest (V-K1). -/
theorem witness_ReadCommandDeliversItsReply : State.reset.status.busy = false
    ∧ (Instr.getSerialId, (9 : Fin 10), (3 : Fin 4)) ∈ readCommands
    ∧ (Instr.selfTest, (5 : Fin 10), (1 : Fin 4)) ∈ readCommands
    ∧ (∀ k < 3, groupGood [0x00#8, 0x00#8, 0x81#8, 0x01#8, 0x23#8, 0xA0#8, 0x45#8, 0x67#8, 0x53#8] k)
    ∧ ∀ k < 1, groupGood [0xD4#8, 0x00#8, 0xC6#8] k := by
  refine ⟨rfl, by decide, by decide, ?_, ?_⟩ <;> simp only [groupGood] <;> decide +kernel

/-- V-E8: only the last of three groups fails. -/
theorem witness_AnyCorruptedGroupDiscardsTheReply : State.reset.status.busy = false
    ∧ (Instr.getSerialId, (9 : Fin 10), (3 : Fin 4)) ∈ readCommands
    ∧ ∃ k < 3, ¬groupGood [0x00#8, 0x00#8, 0x81#8, 0x01#8, 0x23#8, 0xA0#8, 0x45#8, 0x67#8, 0x00#8] k := by
  refine ⟨rfl, by decide, 2, by decide, ?_⟩
  simp only [groupGood]
  decide +kernel

theorem witness_BusFailureCompletesWithIoError : State.reset.status.busy = false
    ∧ (Instr.measureIaq, (1 : Fin 10), (2 : Fin 4)) ∈ readCommands
    ∧ (∀ bs, ReadAnswer.fail = .ok bs → bs.length ≠ 3 * 2)
    ∧ ∀ bs, ReadAnswer.ok [0x01#8, 0x90#8, 0x4C#8, 0x00#8, 0x00#8] = .ok bs → bs.length ≠ 3 * 2 :=
  ⟨rfl, by decide, fun _ h => (nomatch h), fun _ h => by cases h; decide⟩

theorem witness_WriteOnlyCommandCompletesOnItsWrite : State.reset.status.busy = false
    ∧ (Instr.init, (0 : Fin 10), (0 : Fin 3)) ∈ writeOnlyCommands
    ∧ (Instr.setBaseline, (3 : Fin 10), (2 : Fin 3)) ∈ writeOnlyCommands := by decide

theorem witness_EveryStepKeepsTheInvariant : ∃ s t, Inv s ∧ step s = .next t :=
  ⟨_, _, inv_running .wait [] [.tick] (by decide) (by decide) (by decide), rfl⟩

/-- Every row of R79 that completes a command, and a step on none of them that leaves DONE = 1. -/
theorem witness_PhaseMovesOnlyAlongTheTable :
    (∃ s t, Inv s ∧ step s = .next t ∧ outcomeOf s (nextEvent s.env) = some .illegal)
      ∧ (∃ s t, Inv s ∧ step s = .next t ∧ outcomeOf s (nextEvent s.env) = some .io ∧ s.phase = .write)
      ∧ (∃ s t, Inv s ∧ step s = .next t ∧ outcomeOf s (nextEvent s.env) = some .io ∧ s.phase = .read)
      ∧ (∃ s t, Inv s ∧ step s = .next t ∧ outcomeOf s (nextEvent s.env) = some .none ∧ s.phase = .check)
      ∧ (∃ s t, Inv s ∧ step s = .next t ∧ outcomeOf s (nextEvent s.env) = some .protocol)
      ∧ ∃ s t, Inv s ∧ step s = .next t ∧ outcomeOf s (nextEvent s.env) = none ∧ t.status.done = true := by
  refine ⟨⟨_, _, inv_finishedOk [.host (.wr .cmd 0xA#32)], rfl, ?_⟩,
    ⟨_, _, inv_running .write [] [.busWriteAnswer .fail] (by decide) (by decide) (by decide), rfl, rfl, rfl⟩,
    ⟨_, _, inv_running .read [] [.busReadAnswer .fail] (by decide) (by decide) (by decide), rfl, rfl, rfl⟩,
    ⟨_, _, inv_running .check [0x00#8, 0x22#8, 0x65#8] [.internal] (by decide) (by decide) (by decide), rfl, ?_, rfl⟩,
    ⟨_, _, inv_running .check [0x00#8, 0x22#8, 0x9B#8] [.internal] (by decide) (by decide) (by decide), rfl, ?_⟩,
    ⟨_, _, inv_finishedOk [.tick], rfl, ?_, rfl⟩⟩ <;> decide +kernel

/-- One step for each clause of the statement. -/
theorem witness_StatusFieldsChangeOnlyAtTheirEvents :
    (∃ s t, Inv s ∧ step s = .next t ∧ t.status.busy = true ∧ s.status.busy = false ∧ t.status.done = false
        ∧ s.status.done = true ∧ t.status.resValid ≠ s.status.resValid)
      ∧ (∃ s t, Inv s ∧ step s = .next t ∧ t.status.busy = false ∧ s.status.busy = true ∧ t.status.done = true
          ∧ s.status.done = false ∧ t.status.ioRd = true ∧ s.status.ioRd = false)
      ∧ (∃ s t, Inv s ∧ step s = .next t ∧ t.status.err ≠ s.status.err ∧ t.status.crcFail ≠ s.status.crcFail)
      ∧ (∃ s t, Inv s ∧ step s = .next t ∧ t.status.ioRd = false ∧ s.status.ioRd = true)
      ∧ (∃ s t, Inv s ∧ step s = .next t ∧ t.status.ovr = true ∧ s.status.ovr = false)
      ∧ (∃ s t, Inv s ∧ step s = .next t ∧ t.status.ovr = false ∧ s.status.ovr = true)
      ∧ ∃ s t, Inv s ∧ step s = .next t ∧ t.status.done = false ∧ s.status.done = true ∧ t.status.busy = false := by
  refine ⟨⟨_, _, inv_finishedOk [.host (.wr .cmd 9#32)], rfl, rfl, rfl, rfl, rfl, by decide⟩,
    ⟨_, _, inv_running .read [] [.busReadAnswer .fail] (by decide) (by decide) (by decide), rfl, rfl, rfl, rfl, rfl, rfl,
      rfl⟩,
    ⟨_, after (running .check [0x00#8, 0x22#8, 0x9B#8]) .internal,
      inv_running .check [0x00#8, 0x22#8, 0x9B#8] [.internal] (by decide) (by decide) (by decide),
      after_next _ _ (by simp), ?_, ?_⟩,
    ⟨_, _, (inv_finishedBad [.host (.wr .cmd 0#32)]).1, rfl, rfl, rfl⟩,
    ⟨_, _, inv_running .write [] [.host (.wr .cmd 0#32)] (by decide) (by decide) (by decide), rfl, rfl, rfl⟩,
    ⟨_, _, inv_finishedOk [.host (.wr .status 0x800#32)], rfl, rfl, rfl⟩,
    ⟨_, _, inv_finishedOk [.host (.wr .status 0x2#32)], rfl, rfl, rfl, rfl⟩⟩ <;> decide +kernel

/-- One step for each clause of the statement, at the last register of the WAIT_MS table. -/
theorem witness_RegistersChangeOnlyByTheirWriters :
    (∃ s t, Inv s ∧ step s = .next t ∧ nextEvent s.env ≠ .reset ∧ t.ie ≠ s.ie)
      ∧ (∃ s t, Inv s ∧ step s = .next t ∧ nextEvent s.env ≠ .reset ∧ t.taddr ≠ s.taddr)
      ∧ (∃ s t, Inv s ∧ step s = .next t ∧ nextEvent s.env ≠ .reset ∧ t.payload0 ≠ s.payload0)
      ∧ (∃ s t, Inv s ∧ step s = .next t ∧ nextEvent s.env ≠ .reset ∧ t.payload1 ≠ s.payload1)
      ∧ (∃ s t, Inv s ∧ step s = .next t ∧ nextEvent s.env ≠ .reset ∧ t.crcData ≠ s.crcData)
      ∧ (∃ s t, Inv s ∧ step s = .next t ∧ nextEvent s.env ≠ .reset ∧ t.crcExpect ≠ s.crcExpect)
      ∧ (∃ s t, Inv s ∧ step s = .next t ∧ nextEvent s.env ≠ .reset ∧ t.waitMs.get 9 ≠ s.waitMs.get 9)
      ∧ ∃ s t, Inv s ∧ step s = .next t ∧ nextEvent s.env ≠ .reset ∧ t.cmd ≠ s.cmd ∧ t.result 0 ≠ s.result 0 :=
  ⟨⟨_, _, inv_finishedOk [.host (.wr .ctrl 0#32)], rfl, by decide, by decide⟩,
    ⟨_, _, inv_finishedOk [.host (.wr .addr 0#32)], rfl, by decide, by decide⟩,
    ⟨_, _, inv_finishedOk [.host (.wr .payload0 1#32)], rfl, by decide, by decide⟩,
    ⟨_, _, inv_finishedOk [.host (.wr .payload1 1#32)], rfl, by decide, by decide⟩,
    ⟨_, _, inv_finishedOk [.host (.wr .crcData 1#32)], rfl, by decide, by decide⟩,
    ⟨_, _, inv_finishedOk [.host (.wr .crcCheck 1#32)], rfl, by decide, by decide⟩,
    ⟨_, _, inv_finishedOk [.host (.wr (.waitMs 9) 1#32)], rfl, by decide, by decide⟩,
    ⟨_, _, inv_finishedOk [.host (.wr .cmd 0xF#32)], rfl, by decide, by decide, by decide⟩⟩

theorem witness_OneWriteAndAtMostOneReadPerCommand :
    (∃ s t a bs, Inv s ∧ step s = .next t ∧ t.bus = some (.write a bs) ∧ s.phase ≠ .write)
      ∧ (∃ s t a n, Inv s ∧ step s = .next t ∧ t.bus = some (.read a n) ∧ s.phase ≠ .read)
      ∧ (∃ s t, Inv s ∧ step s = .next t ∧ s.phase = .write ∧ nextEvent s.env = .busWriteAnswer .fail)
      ∧ (∃ s t, Inv s ∧ step s = .next t ∧ s.phase = .read ∧ nextEvent s.env = .busReadAnswer .fail)
      ∧ ∃ s t, Inv s ∧ step s = .next t ∧ t.phase = .wait ∧ s.phase ≠ .wait :=
  ⟨⟨_, _, _, _, inv_finishedOk [.host (.wr .cmd 3#32)], rfl, rfl, by decide⟩,
    ⟨_, _, _, _, inv_running .wait [] [.tick] (by decide) (by decide) (by decide), rfl, rfl, by decide⟩,
    ⟨_, _, inv_running .write [] [.busWriteAnswer .fail] (by decide) (by decide) (by decide), rfl, rfl, rfl⟩,
    ⟨_, _, inv_running .read [] [.busReadAnswer .fail] (by decide) (by decide) (by decide), rfl, rfl, rfl⟩,
    ⟨_, _, inv_running .write [] [.busWriteAnswer .ok] (by decide) (by decide) (by decide), rfl, rfl, by decide⟩⟩

theorem witness_CompletionIsAtomicAndPrecise :
    (∃ s t, Inv s ∧ step s = .next t ∧ s.status.busy = true ∧ t.status.busy = false ∧ nextEvent s.env ≠ .reset
        ∧ t.status.err ≠ .none)
      ∧ ∃ s t, Inv s ∧ step s = .next t ∧ s.status.busy = true ∧ t.status.busy = false ∧ nextEvent s.env ≠ .reset
        ∧ t.status.err = .none := by
  refine ⟨⟨_, _, inv_running .write [] [.busWriteAnswer .fail] (by decide) (by decide) (by decide), rfl, rfl, rfl,
    by decide, by decide⟩, ⟨_, after (running .check [0x00#8, 0x22#8, 0x65#8]) .internal,
      inv_running .check [0x00#8, 0x22#8, 0x65#8] [.internal] (by decide) (by decide) (by decide),
      after_next _ _ (by simp), rfl, ?_, by decide, ?_⟩⟩ <;> decide +kernel

/-- `irq` raised by a completion and by CTRL, and lowered by reset, by W1C and by a start. -/
theorem witness_InterruptFollowsDone :
    (∃ s t, Inv s ∧ step s = .next t ∧ irq t = true ∧ irq s = false ∧ ∃ k, outcomeOf s (nextEvent s.env) = some k)
      ∧ (∃ s t, Inv s ∧ step s = .next t ∧ irq t = true ∧ irq s = false
          ∧ accesses (nextEvent s.env) .write .ctrl = true)
      ∧ (∃ t, step (finishedOk.place [.reset]) = .next t)
      ∧ (∃ t, step (finishedOk.place [.host (.wr .status 0x2#32)]) = .next t
          ∧ (writtenWord (.host (.wr .status 0x2#32))).getLsbD 1 = true)
      ∧ ∃ t, step (finishedOk.place [.host (.wr .cmd 0#32)]) = .next t
          ∧ startIndex finishedOk (.host (.wr .cmd 0#32)) = some 0#4 := by
  refine ⟨⟨_, _, inv_running .write [] [.busWriteAnswer .fail] (by decide) (by decide) (by decide), rfl, rfl, rfl, .io,
    rfl⟩, ⟨_, _, (inv_finishedBad [.host (.wr .ctrl 1#32)]).2, rfl, rfl, rfl, rfl⟩, ⟨_, rfl⟩, ⟨_, rfl, rfl⟩,
    ⟨_, rfl, ?_⟩⟩
  decide +kernel

theorem witness_UnansweredTransactionHangs :
    (running .read []).status.busy = true ∧ (running .read []).phase = .read
      ∧ ∀ e ∈ [Event.tick, .internal, .host (.wr .cmd 1#32)], legalEvent e ∧ ¬isAnswer e ∧ e ≠ .reset := by
  refine ⟨rfl, rfl, ?_⟩
  intro e he
  have hw : ∀ a, Event.host (.wr .cmd 1#32) = .host a → a.wellFormed = true := by
    intro a ha; cases ha; rfl
  rcases List.mem_cons.mp he with rfl | he
  · exact ⟨fun a h => (nomatch h), by simp [isAnswer], by simp⟩
  · rcases List.mem_cons.mp he with rfl | he
    · exact ⟨fun a h => (nomatch h), by simp [isAnswer], by simp⟩
    · rcases List.mem_singleton.mp he with rfl
      exact ⟨hw, by simp [isAnswer], by simp⟩

theorem witness_ResultsStayUntilTheNextStart : Inv (finishedOk.place []) ∧ finishedOk.phase = .idle
    ∧ (∀ e ∈ [Event.tick, .host (.wr .status 0x2#32)], accesses e .write .cmd = false ∧ e ≠ .reset)
    ∧ ∃ t, RunsTo finishedOk [.tick, .host (.wr .status 0x2#32)] t :=
  ⟨inv_finishedOk [], rfl, by decide, _, rfl⟩

theorem witness_RunningCommandIgnoresItsSourceRegisters :
    let s := running .wait []
    let t : State := { s with taddr := 0x12#7, payload0 := 0x1234#16, payload1 := 1#16, waitMs := s.waitMs.set 6 0#16 }
    s.status.busy = true ∧ sameButCommandSources s t ∧ (∃ s', fire .tick s = .next s')
      ∧ (∃ s', fire (.host (.wr .addr 0x7F#32)) s = .next s') ∧ Event.tick ≠ .reset :=
  ⟨rfl, ⟨⟨rfl, rfl, rfl, rfl, rfl, rfl, rfl, rfl, rfl, rfl⟩, rfl, rfl, rfl⟩, ⟨_, rfl⟩, ⟨_, rfl⟩, by simp⟩

theorem witness_UnspecifiedSnapshotIsNeverReadWhileIdle :
    let s := State.reset.place [.host (.wr .cmd 9#32)]
    let t := { s with snap := takeSnapshot 9 s }
    s.phase = .idle ∧ sameButSnapshot s t ∧ ∃ s', step s = .next s' := ⟨rfl, rfl, _, rfl⟩

theorem witness_SettingsWrittenBeforeCmdAreUsed : State.reset.status.busy = false := rfl

theorem witness_ResetAbandonsTheCommand : (running .read []).status.busy = true
    ∧ isAnswer (.busReadAnswer (.ok [0x00#8])) ∧ isAnswer (.busWriteAnswer .ok) :=
  ⟨rfl, .inr ⟨_, rfl⟩, .inl ⟨_, rfl⟩⟩

/-- The shortest reply, and the first and the last RESULT register. -/
theorem witness_DeliveredWordsAreReadAtTheResultRegisters : State.reset.status.busy = false
    ∧ (Instr.selfTest, (5 : Fin 10), (1 : Fin 4)) ∈ readCommands ∧ [0xD4#8, 0x00#8, 0xC6#8].length = 3 * 1
    ∧ (∀ k < 1, groupGood [0xD4#8, 0x00#8, 0xC6#8] k) ∧ (0 : Nat) < 3 ∧ (2 : Nat) < 3 := by
  refine ⟨rfl, by decide, rfl, ?_, by decide, by decide⟩
  simp only [groupGood]
  decide +kernel

theorem witness_CmdReadsTheLastAcceptedIndex : State.reset.status.busy = false
    ∧ (running .read []).status.busy = true := ⟨rfl, rfl⟩

/-- INIT in WRITE, started with WAIT_MS0 = 10. -/
def initInWrite : State := { running .write [] with cmd := 0#4, snap := takeSnapshot 0 State.reset }

theorem eventSafe_of_not_host (q : List Gap) (e : Event) (s : State) (h : ∀ a, e ≠ .host a) : eventSafe q e s := by
  cases e <;> first | exact absurd rfl (h _) | exact ⟨nofun, nofun, nofun, nofun⟩

/-- A write to a WAIT_MS register is safe at any time (R117). -/
theorem eventSafe_waitMs (q : List Gap) (v : Word) (s : State) : eventSafe q (.host (.wr (.waitMs 0) v)) s :=
  ⟨nofun, nofun, nofun, nofun⟩

/-- From the completion: INIT's write answered, 11 ticks and a CMD write (P1, steps 3 to 7). From the start: INIT with
WAIT_MS0 lowered to 1 in WRITE and restored after the 11 ticks. The gap is met exactly in both. -/
theorem witness_SafeRunKeepsTheSettleGap :
    (initInWrite.status.busy = true ∧ initInWrite.phase = .write ∧ initInWrite.snap.nreply = 0
      ∧ safeRun [] ([.busWriteAnswer .ok] ++ List.replicate 11 .tick ++ [.host (.wr .cmd 1#32)]) initInWrite
      ∧ (∃ t, RunsTo initInWrite ([.busWriteAnswer .ok] ++ List.replicate 11 .tick) t
          ∧ t.taddr = initInWrite.snap.taddr)
      ∧ accesses (.host (.wr .cmd 1#32)) .write .cmd = true)
    ∧ State.reset.status.busy = false ∧ (Instr.init, (0 : Fin 10), (0 : Fin 3)) ∈ writeOnlyCommands
      ∧ (∀ a ∈ [Event.host (.wr (.waitMs 0) 1#32)], (∀ w, a ≠ .busWriteAnswer w) ∧ a ≠ .reset)
      ∧ safeRun [] ([.host (encode .init)] ++ [.host (.wr (.waitMs 0) 1#32)] ++ [.busWriteAnswer .ok]
          ++ (List.replicate 11 .tick ++ [.host (.wr (.waitMs 0) 10#32)]) ++ [.host (.wr .cmd 1#32)]) State.reset
      ∧ ∃ t, RunsTo State.reset ([.host (encode .init)] ++ [.host (.wr (.waitMs 0) 1#32)] ++ [.busWriteAnswer .ok]
          ++ (List.replicate 11 .tick ++ [.host (.wr (.waitMs 0) 10#32)])) t ∧ t.taddr = State.reset.taddr := by
  have conservative : ∀ s : State, s.waitMs = resetWaitMs → waitsConservative s := by
    intro s h c
    rw [h]
  refine ⟨⟨rfl, rfl, rfl, ?_, ⟨_, rfl, rfl⟩, by decide⟩, rfl, by decide, by simp, ?_, ⟨_, rfl, rfl⟩⟩
  · refine ⟨eventSafe_of_not_host _ _ _ (by simp), nofun, ?_⟩
    iterate 11 refine ⟨eventSafe_of_not_host _ _ _ (by simp), nofun, ?_⟩
    refine ⟨⟨fun _ => ⟨rfl, ?_⟩, nofun, nofun, nofun⟩, fun _ => conservative _ rfl, trivial⟩
    intro g hg _
    rcases List.mem_singleton.mp hg with rfl
    rfl
  · refine ⟨⟨fun _ => ⟨rfl, nofun⟩, nofun, nofun, nofun⟩, fun _ => conservative _ rfl, ?_⟩
    refine ⟨eventSafe_waitMs _ _ _, nofun, ?_⟩
    refine ⟨eventSafe_of_not_host _ _ _ (by simp), nofun, ?_⟩
    iterate 11 refine ⟨eventSafe_of_not_host _ _ _ (by simp), nofun, ?_⟩
    refine ⟨eventSafe_waitMs _ _ _, nofun, ?_⟩
    refine ⟨⟨fun _ => ⟨rfl, ?_⟩, nofun, nofun, nofun⟩, fun _ => conservative _ (by rfl), trivial⟩
    intro g hg _
    rcases List.mem_singleton.mp hg with rfl
    rfl

theorem witness_TickSourceRunsForEver : State.reset.phase ≠ .wait
    ∧ ∃ s t, step s = .next t ∧ s.phase ≠ .wait ∧ t.phase = .wait :=
  ⟨by decide, (running .write []).place [.busWriteAnswer .ok], _, rfl, by decide, rfl⟩

theorem witness_FairEnvironmentEndsWaitAndCheck : Inv ((running .wait []).place []) ∧ (running .wait []).phase = .wait
    ∧ Inv ((running .check [0x00#8, 0x22#8, 0x65#8]).place [])
    ∧ (running .check [0x00#8, 0x22#8, 0x65#8]).phase = .check :=
  ⟨inv_running .wait [] [] (by decide) (by decide) (by decide), rfl,
    inv_running .check [0x00#8, 0x22#8, 0x65#8] [] (by decide) (by decide) (by decide), rfl⟩

theorem witness_WaitWithoutTicksLasts :
    (running .wait []).status.busy = true ∧ (running .wait []).phase = .wait
      ∧ ∀ e ∈ [Event.internal, .busReadAnswer .fail, .host (.wr .cmd 1#32)], legalEvent e ∧ e ≠ .tick ∧ e ≠ .reset := by
  refine ⟨rfl, rfl, ?_⟩
  intro e he
  have hw : ∀ a, Event.host (.wr .cmd 1#32) = .host a → a.wellFormed = true := by
    intro a ha; cases ha; rfl
  rcases List.mem_cons.mp he with rfl | he
  · exact ⟨nofun, by simp, by simp⟩
  · rcases List.mem_cons.mp he with rfl | he
    · exact ⟨nofun, by simp, by simp⟩
    · rcases List.mem_singleton.mp he with rfl
      exact ⟨hw, by simp, by simp⟩

end Sys2Proof.Tests
end

section
/-! The register file (10_state.md): the words a host reads, the bits a host write can change, and the two steps of a
legal host access; then the statements about the registers. -/

namespace Sys2Proof.Machine
open Sys2Proof.Claims

/-! ### Words and their bits -/

/-- A word whose bits from `n` up are 0 has no bit outside its low `n` bits. -/
theorem and_not_lowBits_eq_zero {v : Word} {n : Nat} (h : ∀ i, n ≤ i → v.getLsbD i = false) :
    v &&& ~~~(BitVec.allOnes n).setWidth 32 = 0#32 := by
  apply BitVec.eq_of_getLsbD_eq
  intro i hi
  by_cases hn : i < n
  · simp [hi, hn]
  · simp [h i (by omega)]

/-- Words that agree on the bits of `m` agree in every bit that `m` holds. -/
theorem getLsbD_eq_of_and_eq {m v v' : Word} (h : v &&& m = v' &&& m) {i : Nat} (hi : m.getLsbD i = true) :
    v.getLsbD i = v'.getLsbD i := by
  simpa [hi] using congrArg (BitVec.getLsbD · i) h

/-- Words that agree on the bits of `m` hold the same low field of `n` bits, if `m` holds those bits. -/
theorem lowField_eq_of_and_eq {m v v' : Word} (h : v &&& m = v' &&& m) {n : Nat}
    (hm : ∀ i < n, m.getLsbD i = true) : v.extractLsb' 0 n = v'.extractLsb' 0 n := by
  apply BitVec.eq_of_getLsbD_eq
  intro i hi
  simp [getLsbD_eq_of_and_eq h (hm i hi)]

/-- A field of a word, read off bit by bit. -/
theorem extractLsb'_eq_of_getLsbD {v : Word} {k n : Nat} {x : BitVec n}
    (h : ∀ i < n, v.getLsbD (k + i) = x.getLsbD i) : v.extractLsb' k n = x := by
  apply BitVec.eq_of_getLsbD_eq
  intro i hi
  simp [hi, h i hi]

/-! ### The two steps of a legal host access -/

/-- A 32-bit write at a register's offset takes the register's write effect (R31). -/
theorem step_write (r : Reg) (v : Word) (s : State) :
    step (s.place [.host ⟨.write, 32, r.offset, v⟩]) = .next (regWrite r v s) :=
  (step_place s _ []).trans (fire_wr r v s)

/-- A 32-bit read at a register's offset answers the register's value (R31). -/
theorem step_read (r : Reg) (s : State) :
    step (s.place [.host ⟨.read, 32, r.offset, 0#32⟩]) = .next (readRegister r s) :=
  (step_place s _ []).trans (fire_rd r s)

/-! ### What registers read -/

/-- No register's value depends on what the host last read (R34). -/
@[simp] theorem regRead_readRegister (q r : Reg) (s : State) : regRead q (readRegister r s) = regRead q s := by
  cases q <;> rfl

/-- How many low bits of a register are not reserved (R17 to R27). -/
def definedWidth : Reg → Nat
  | .ctrl => 1
  | .cmd => 4
  | .status => 15
  | .addr => 7
  | .payload0 => 16
  | .payload1 => 16
  | .result0 => 16
  | .result1 => 16
  | .result2 => 16
  | .crcData => 16
  | .crcCheck => 17
  | .waitMs _ => 16
  | .desc _ => 20

/-- In every register the bits that are not reserved stand together from bit 0 up. -/
theorem definedBits_eq_lowBits (r : Reg) : definedBits r = (BitVec.allOnes (definedWidth r)).setWidth 32 := by
  cases r <;> rfl

/-- STATUS has no bit above PHASE (R19). -/
theorem statusWord_getLsbD_of_ge (st : Status) (ph : Phase) {i : Nat} (hi : 15 ≤ i) :
    (statusWord st ph).getLsbD i = false := by
  rw [statusWord_getLsbD]
  simp (disch := omega) only [if_neg, BitVec.getLsbD_zero]

/-- DESCc has no bit above NPAYLOAD (R27). -/
theorem descWord_getLsbD_of_ge (c : Fin 10) {i : Nat} (hi : 20 ≤ i) : (descWord c).getLsbD i = false := by
  rw [descWord_getLsbD]
  simp (disch := omega) only [if_neg, BitVec.getLsbD_zero]

/-- A field of `n` bits, zero-extended, has no bit from `n` up. -/
theorem setWidth_getLsbD_of_ge {n : Nat} (x : BitVec n) {i : Nat} (hi : n ≤ i) :
    (x.setWidth 32).getLsbD i = false := by
  simp [BitVec.getLsbD_of_ge x i hi]

/-- No register shows a bit above its defined ones. -/
theorem regRead_getLsbD_of_ge (r : Reg) (s : State) {i : Nat} (hi : definedWidth r ≤ i) :
    (regRead r s).getLsbD i = false := by
  cases r with
  | status => exact statusWord_getLsbD_of_ge _ _ hi
  | desc c => exact descWord_getLsbD_of_ge c hi
  | _ => exact setWidth_getLsbD_of_ge _ hi

/-- Reserved bits read as 0 (R16). -/
theorem regRead_reserved (r : Reg) (s : State) : regRead r s &&& ~~~definedBits r = 0#32 := by
  rw [definedBits_eq_lowBits]
  exact and_not_lowBits_eq_zero fun _ hi => regRead_getLsbD_of_ge r s hi

/-- CTRL reads IE in bit 0 and 0 above (R17). -/
theorem regRead_ctrl (s : State) : regRead .ctrl s = if s.ie then 1#32 else 0#32 := by
  rw [regRead]
  cases s.ie <;> rfl

/-- The opcode byte sent second stands in bits 7:0 of DESCc (R27). -/
theorem descWord_opcode1 (c : Fin 10) : (descWord c).extractLsb' 0 8 = Config.opcode1 c :=
  extractLsb'_eq_of_getLsbD fun i hi => by simp [descWord_getLsbD, hi]

/-- The opcode byte sent first stands in bits 15:8 of DESCc (R27). -/
theorem descWord_opcode0 (c : Fin 10) : (descWord c).extractLsb' 8 8 = Config.opcode0 c :=
  extractLsb'_eq_of_getLsbD fun i hi => by simp [descWord_getLsbD, hi]

/-- NREPLY stands in bits 17:16 of DESCc (R27). -/
theorem descWord_nreply (c : Fin 10) :
    (descWord c).extractLsb' 16 2 = BitVec.ofNat 2 (descriptor c).nreply.val :=
  extractLsb'_eq_of_getLsbD fun i hi => by
    rw [descWord_getLsbD]
    simp (disch := omega) only [if_neg, if_pos]
    congr 1; omega

/-- NPAYLOAD stands in bits 19:18 of DESCc (R27). -/
theorem descWord_npay (c : Fin 10) :
    (descWord c).extractLsb' 18 2 = BitVec.ofNat 2 (descriptor c).npay.val :=
  extractLsb'_eq_of_getLsbD fun i hi => by
    rw [descWord_getLsbD]
    simp (disch := omega) only [if_neg, if_pos]
    congr 1; omega

/-- Bits 31:20 of DESCc are reserved (R27). -/
theorem descWord_reserved (c : Fin 10) : (descWord c).extractLsb' 20 12 = 0#12 :=
  extractLsb'_eq_of_getLsbD fun i _ => by
    rw [descWord_getLsbD_of_ge c (by omega), BitVec.getLsbD_zero]

/-! ### What a host write can change -/

/-- The effect of a write depends on the writable bits of the written word alone (R16). -/
theorem regWrite_eq_of_writableBits {r : Reg} {v v' : Word} (h : v &&& writableBits r = v' &&& writableBits r)
    (s : State) : regWrite r v s = regWrite r v' s := by
  have low16 (hm : writableBits r = 0xFFFF#32) : halfField v = halfField v' :=
    lowField_eq_of_and_eq (hm ▸ h) (by decide)
  cases r with
  | ctrl => exact congrArg s.setIe (getLsbD_eq_of_and_eq h rfl)
  | cmd => exact congrArg (commandWrite · s) (lowField_eq_of_and_eq h (by decide))
  | status =>
    have hdone : v.getLsbD 1 = v'.getLsbD 1 := getLsbD_eq_of_and_eq h rfl
    have hovr : v.getLsbD 11 = v'.getLsbD 11 := getLsbD_eq_of_and_eq h rfl
    simp only [regWrite, acknowledge_eq, hdone, hovr]
  | addr => exact congrArg s.setTaddr (lowField_eq_of_and_eq h (by decide))
  | payload0 => exact congrArg s.setPayload0 (low16 rfl)
  | payload1 => exact congrArg s.setPayload1 (low16 rfl)
  | crcData => exact congrArg s.setCrcData (low16 rfl)
  | crcCheck => exact congrArg s.setCrcExpect (lowField_eq_of_and_eq h (by decide))
  | waitMs c => exact congrArg (s.setWaitMs c) (low16 rfl)
  | result0 | result1 | result2 | desc => rfl

/-- A write to a register with no writable bits changes nothing (R16). -/
theorem regWrite_readOnly {r : Reg} (h : writableBits r = 0#32) (v : Word) (s : State) : regWrite r v s = s := by
  cases r with
  | result0 | result1 | result2 | desc => rfl
  | _ => simp [writableBits] at h

/-! ### The statements about the registers -/

/-- Settles O12: each part holds of the register's own value or write effect, which the step then takes. -/
theorem reservedBitsAndReadOnlyRegisters : Obligations.ReservedBitsAndReadOnlyRegisters := by
  refine ⟨regRead_reserved, fun r v v' s h => ?_, fun r v s h => ?_, fun r q s t h => ?_⟩
  · rw [step_write, step_write, regWrite_eq_of_writableBits h]
  · rw [step_write, regWrite_readOnly h]
  · rw [step_read] at h
    cases h
    exact regRead_readRegister q r s

/-- Settles O16: DESCc is `descWord c` in every state, read off field by field against the command table. -/
theorem descriptorRegistersAreConstant : Obligations.DescriptorRegistersAreConstant := by
  intro c s
  have hreply : (BitVec.ofNat 2 (descriptor c).nreply.val).toNat = [0, 2, 2, 0, 0, 1, 1, 1, 0, 3].getD c.val 0 := by
    revert c; decide
  have hpay : (BitVec.ofNat 2 (descriptor c).npay.val).toNat = [0, 0, 0, 2, 1, 0, 0, 0, 1, 0].getD c.val 0 := by
    revert c; decide
  exact ⟨descWord_opcode1 c, descWord_opcode0 c, descWord_nreply c ▸ hreply, descWord_npay c ▸ hpay,
    descWord_reserved c, fun v => step_write (.desc c) v s⟩

/-- Settles O47: the write step is `setIe` of bit 0, which `irq` and CTRL then read. -/
theorem ctrlWriteSetsTheInterruptEnable : Obligations.CtrlWriteSetsTheInterruptEnable := by
  refine ⟨fun s v => ⟨s.setIe (v.getLsbD 0), step_write .ctrl v s, rfl, rfl, ?_⟩, regRead_ctrl, rfl⟩
  rw [BitVec.and_one_eq_setWidth_ofBool_getLsbD]
  rfl

end Sys2Proof.Machine
end

section
/-! The host port (20_memory.md R31 to R35): which accesses fault, and what reads and writes leave unchanged; then the
statements about host accesses. -/

namespace Sys2Proof.Machine
open Sys2Proof.Claims

/-! ### Which accesses fault -/

/-- The legal accesses of R32, with the offsets of R15 listed one by one. -/
theorem wellFormed_iff_mem_mappedOffsets (a : HostAccess) :
    a.wellFormed = true ↔ a.width = 32 ∧ a.off % 4 = 0 ∧ a.off ∈ mappedOffsets := by
  simp only [HostAccess.wellFormed, HostAccess.widthOk, HostAccess.alignedOk, HostAccess.mappedOk, mappedOffsets,
    Bool.and_eq_true, Bool.or_eq_true, beq_iff_eq, decide_eq_true_eq, List.mem_cons, List.not_mem_nil, or_false]
  omega

/-- A step faults only at an illegal host access, with the fault of its offset (R32, R95). -/
theorem step_eq_fault_iff (s : State) (f : Fault) :
    step s = .fault f ↔ ∃ a, nextEvent s.env = .host a ∧ a.wellFormed = false ∧ f = .hostBusError a.off := by
  constructor
  · intro h
    have hf := step_fires s
    rw [h] at hf
    generalize nextEvent s.env = e at hf
    cases hf with
    | badAccess a ha => exact ⟨a, rfl, ha, rfl⟩
  · rintro ⟨a, he, ha, rfl⟩
    rw [step, he]
    exact hostAccess_illegal ha _

/-- No instruction lacks a meaning, so no step is refused. -/
theorem step_ne_refused (s : State) (r : Refusal) : step s ≠ .refused r := by
  intro h
  have hf := step_fires s
  rw [h] at hf
  generalize nextEvent s.env = e at hf
  cases hf

/-- Settles O11: a step faults exactly where R32 is broken, and R32's three conditions are those listed. -/
theorem hostBusErrorExactlyOnIllegalAccess : Obligations.HostBusErrorExactlyOnIllegalAccess := by
  refine ⟨fun s f => ?_, step_ne_refused⟩
  simp only [step_eq_fault_iff, ← wellFormed_iff_mem_mappedOffsets, Bool.not_eq_true]

/-! ### Reads and plain writes -/

/-- A repeated read answers the same value (R34). -/
theorem readRegister_idem (r : Reg) (s : State) : readRegister r (readRegister r s) = readRegister r s := by
  have hval : regRead r (readRegister r s) = regRead r s := regRead_readRegister r r s
  rw [readRegister, hval]
  rfl

/-- Every write but that of CMD is idempotent (R34). -/
theorem regWrite_idem {r : Reg} (hr : r ≠ .cmd) (v : Word) (s : State) :
    regWrite r v (regWrite r v s) = regWrite r v s := by
  cases r with
  | cmd => exact absurd rfl hr
  | status => simp only [regWrite, acknowledge_eq, Bool.and_assoc, Bool.and_self]
  | waitMs c => simp [regWrite, State.setWaitMs]
  | _ => rfl

/-- A write to a register other than CMD and STATUS leaves the engine alone (R34). -/
theorem sameEngine_regWrite {r : Reg} (hcmd : r ≠ .cmd) (hstatus : r ≠ .status) (v : Word) (s : State) :
    SameEngine s (regWrite r v s) := by
  cases r with
  | cmd => exact absurd rfl hcmd
  | status => exact absurd rfl hstatus
  | _ => exact ⟨rfl, rfl, rfl, rfl, rfl, rfl, rfl, rfl, rfl, rfl⟩

/-- A write to a register other than CMD leaves what the host last read alone (R34). -/
theorem regWrite_env {r : Reg} (hcmd : r ≠ .cmd) (v : Word) (s : State) : (regWrite r v s).env = s.env := by
  cases r with
  | cmd => exact absurd rfl hcmd
  | _ => rfl

/-- A write to a register other than CMD and CRC_CHECK leaves EXPECT alone (R25). -/
theorem regWrite_crcExpect {r : Reg} (hcmd : r ≠ .cmd) (hr : r ≠ .crcCheck) (v : Word) (s : State) :
    (regWrite r v s).crcExpect = s.crcExpect := by
  cases r with
  | cmd => exact absurd rfl hcmd
  | crcCheck => exact absurd rfl hr
  | _ => rfl

/-- The low `n` bits of a word, stored and zero-extended, are those of the word. -/
theorem lowField_and_lowBits (v : Word) (n : Nat) :
    (v.extractLsb' 0 n).setWidth 32 &&& (BitVec.allOnes n).setWidth 32 = v &&& (BitVec.allOnes n).setWidth 32 := by
  apply BitVec.eq_of_getLsbD_eq
  intro i hi
  by_cases hn : i < n <;> simp [hi, hn]

/-- CRC_CHECK shows EXPECT in its low byte (R25). -/
theorem crcCheckWord_expect (s : State) : (crcCheckWord s).extractLsb' 0 8 = s.crcExpect :=
  extractLsb'_eq_of_getLsbD fun i hi => by simp [crcCheckWord_getLsbD, hi]

/-- A write to a register other than CMD and STATUS stores its writable bits (R17, R21, R22, R24 to R26). -/
theorem regRead_regWrite_same {r : Reg} (hcmd : r ≠ .cmd) (hstatus : r ≠ .status) (v : Word) (s : State) :
    regRead r (regWrite r v s) &&& writableBits r = v &&& writableBits r := by
  cases r with
  | cmd => exact absurd rfl hcmd
  | status => exact absurd rfl hstatus
  | ctrl =>
    have hread : regRead .ctrl (regWrite .ctrl v s) = v &&& 1#32 := BitVec.and_one_eq_setWidth_ofBool_getLsbD.symm
    rw [hread, writableBits, BitVec.and_assoc, BitVec.and_self]
  | addr => exact lowField_and_lowBits v 7
  | payload0 | payload1 | crcData => exact lowField_and_lowBits v 16
  | crcCheck =>
    have hread := lowField_and_lowBits (crcCheckWord (s.setCrcExpect (expectField v))) 8
    rw [crcCheckWord_expect] at hread
    exact hread.symm.trans (lowField_and_lowBits v 8)
  | waitMs c =>
    have hread : regRead (.waitMs c) (regWrite (.waitMs c) v s) = (halfField v).setWidth 32 := by
      simp only [regRead, regWrite, setWaitMs_get, if_pos]
    rw [hread]
    exact lowField_and_lowBits v 16
  | result0 | result1 | result2 | desc => simp only [writableBits, BitVec.and_zero]

/-- A write to a register other than CMD and STATUS shows in no other register, but that CRC_CHECK shows the CRC of
CRC_DATA (R25, R34). -/
theorem regRead_regWrite_other {r q : Reg} (hcmd : r ≠ .cmd) (hstatus : r ≠ .status) (hq : q ≠ r)
    (hcrc : ¬(r = .crcData ∧ q = .crcCheck)) (v : Word) (s : State) : regRead q (regWrite r v s) = regRead q s := by
  cases r with
  | cmd => exact absurd rfl hcmd
  | status => exact absurd rfl hstatus
  | ctrl => cases q with
    | ctrl => exact absurd rfl hq
    | _ => rfl
  | addr => cases q with
    | addr => exact absurd rfl hq
    | _ => rfl
  | payload0 => cases q with
    | payload0 => exact absurd rfl hq
    | _ => rfl
  | payload1 => cases q with
    | payload1 => exact absurd rfl hq
    | _ => rfl
  | crcData => cases q with
    | crcData => exact absurd rfl hq
    | crcCheck => exact absurd ⟨rfl, rfl⟩ hcrc
    | _ => rfl
  | crcCheck => cases q with
    | crcCheck => exact absurd rfl hq
    | _ => rfl
  | waitMs c => cases q with
    | waitMs d =>
      have hdc : d ≠ c := fun h => hq (congrArg Reg.waitMs h)
      simp only [regRead, regWrite, setWaitMs_get, if_neg hdc]
    | _ => rfl
  | result0 | result1 | result2 | desc => rfl

/-- Settles O14: each part is the law of that read or write effect; INIT written twice from reset starts, then
overruns. -/
theorem hostReadsAndPlainWritesHaveNoSideEffects : Obligations.HostReadsAndPlainWritesHaveNoSideEffects := by
  refine ⟨fun r s t h => ?_, fun r v s t hcmd hstatus h => ?_, fun r v s t hcmd h => ?_, ?_⟩
  · rw [step_read] at h
    cases h
    exact ⟨rfl, by rw [step_read, readRegister_idem]⟩
  · rw [step_write] at h
    cases h
    exact ⟨regRead_regWrite_same hcmd hstatus v s, sameEngine_regWrite hcmd hstatus v s, regWrite_env hcmd v s,
      (regWrite_crcExpect hcmd · v s), fun q hq hcrc => regRead_regWrite_other hcmd hstatus hq hcrc v s⟩
  · rw [step_write] at h
    cases h
    rw [step_write, regWrite_idem hcmd]
  · refine ⟨0#32, .reset, regWrite .cmd 0#32 .reset, step_write .cmd _ _, fun h => ?_⟩
    have hsecond := (step_write .cmd 0#32 (regWrite .cmd 0#32 .reset)).symm.trans h
    injection hsecond with htwice
    exact absurd (congrArg (·.status.ovr) htwice) (by decide)

end Sys2Proof.Machine
end

section
/-! The bus transactions of a command (20_memory.md R37, R38): what a step does to the phase and the outstanding
transaction; then the statement about them. -/

namespace Sys2Proof.Machine
open Sys2Proof.Claims

/-! ### Which events start a command -/

/-- No two registers stand at one offset (R15). -/
theorem offset_inj {r q : Reg} : r.offset = q.offset ↔ r = q := by
  refine ⟨fun h => ?_, congrArg Reg.offset⟩
  have hsome : some r = some q := by rw [← Reg.ofOffset_offset r, h, Reg.ofOffset_offset]
  exact Option.some.inj hsome

/-- A command's index is below 10 (R48). -/
theorem legalIndex_lt (c : Fin 10) : (BitVec.ofNat 4 c.val).toNat < 10 := by
  revert c; decide

/-- A read starts no command. -/
theorem startIndex_read {a : HostAccess} (hk : a.kind = .read) (s : State) : startIndex s (.host a) = none := by
  simp [startIndex, accesses, hk]

/-- A write starts a command only at CMD. -/
theorem startIndex_write_other {a : HostAccess} {r : Reg} (ho : a.off = r.offset) (hr : r ≠ .cmd) (s : State) :
    startIndex s (.host a) = none := by
  simp [startIndex, accesses, ho, offset_inj, hr]

/-- A CMD write while BUSY = 1 is ignored (R83). -/
theorem startIndex_busy {s : State} (hb : s.status.busy = true) (e : Event) : startIndex s e = none := by
  simp [startIndex, hb]

/-- A CMD write while BUSY = 0 is accepted with its index (R80). -/
theorem startIndex_accepted {s : State} (hb : s.status.busy = false) {a : HostAccess} (hk : a.kind = .write)
    (hw : a.width = 32) (ho : a.off = Reg.offset .cmd) : startIndex s (.host a) = some (cmdField a.data) := by
  simp [startIndex, accesses, hb, hk, hw, ho, writtenWord, cmdField]

/-! ### What a step does to the phase and the bus -/

/-- What an event does to the phase and the outstanding transaction, one constructor a way out of a phase (R38, R79). -/
inductive BusStep (s : State) : Event → State → Prop where
  | stays {e t} (hstart : startIndex s e = none) (hwrite : ∀ a, e = .busWriteAnswer a → s.phase ≠ .write)
      (hread : ∀ a, e = .busReadAnswer a → s.phase ≠ .read) (hphase : t.phase = s.phase) (hbus : t.bus = s.bus) :
      BusStep s e t
  | starts {e t} (c : Fin 10) (hidle : s.phase = .idle) (hfree : s.bus = none)
      (hstart : startIndex s e = some (BitVec.ofNat 4 c.val)) (hphase : t.phase = .write)
      (hbus : t.bus = some (.write s.taddr (txFrame (takeSnapshot c s)))) : BusStep s e t
  | toIdle {e t} (hstart : ∀ c, startIndex s e = some c → 10 ≤ c.toNat) (hphase : t.phase = .idle)
      (hbus : t.bus = none) : BusStep s e t
  | toWait {t} (hpre : s.phase = .write) (hn : s.snap.nreply ≠ 0) (hphase : t.phase = .wait) (hbus : t.bus = none) :
      BusStep s (.busWriteAnswer .ok) t
  | toRead {t} (hpre : s.phase = .wait) (hfree : s.bus = none) (hphase : t.phase = .read)
      (hbus : t.bus = some (.read s.snap.taddr (rxLength s.snap))) : BusStep s .tick t
  | toCheck {bs t} (hpre : s.phase = .read) (hphase : t.phase = .check) (hbus : t.bus = none) :
      BusStep s (.busReadAnswer (.ok bs)) t

/-- Nothing is outstanding in a phase that waits for no answer (R28). -/
theorem Inv.bus_none {s : State} (h : Inv s) (hw : s.phase ≠ .write) (hr : s.phase ≠ .read) : s.bus = none := by
  have hbus := h.bus
  rw [BusInv] at hbus
  cases hp : s.phase with
  | write => exact absurd hp hw
  | read => exact absurd hp hr
  | idle | wait | check => simpa only [hp] using hbus

/-- A CMD write: ignored, or a start, or the completion of an illegal index (R80, R82, R83). -/
theorem busStep_commandWrite {s : State} (hinv : Inv s) {a : HostAccess} (hk : a.kind = .write) (hw : a.width = 32)
    (ho : a.off = Reg.offset .cmd) : BusStep s (.host a) (commandWrite (cmdField a.data) s) := by
  cases hb : s.status.busy with
  | true =>
    rw [commandWrite_busy hb]
    exact .stays (startIndex_busy hb _) nofun nofun rfl rfl
  | false =>
    have hstart := startIndex_accepted hb hk hw ho
    obtain ⟨hidle, hfree⟩ := hinv.idle hb
    rcases cmd_cases (cmdField a.data) with ⟨c, hc⟩ | hc
    · rw [hc] at hstart ⊢
      rw [commandWrite_legal hb]
      exact .starts c hidle hfree hstart rfl rfl
    · rw [commandWrite_illegal hb hc]
      refine .toIdle (fun c h => ?_) rfl hfree
      rw [hstart] at h
      exact Option.some.inj h ▸ hc

/-- The answer to the BusWrite (R84). -/
theorem busStep_writeResp {s : State} (hp : s.phase = .write) (a : WriteAnswer) :
    BusStep s (.busWriteAnswer a) (writeResp a s) := by
  have hstart : ∀ c, startIndex s (.busWriteAnswer a) = some c → 10 ≤ c.toNat := nofun
  cases a with
  | fail =>
    rw [writeResp_fail]
    exact .toIdle hstart rfl rfl
  | ok =>
    by_cases hn : s.snap.nreply = 0
    · rw [writeResp_ok_writeOnly hn]
      exact .toIdle hstart rfl rfl
    · rw [writeResp_ok_read hn]
      exact .toWait hp hn rfl rfl

/-- The answer to the BusRead (R86). -/
theorem busStep_readResp {s : State} (hp : s.phase = .read) (a : ReadAnswer) :
    BusStep s (.busReadAnswer a) (readResp a s) := by
  by_cases hgood : ∃ bs, a = .ok bs ∧ bs.length = rxLength s.snap
  · obtain ⟨bs, rfl, hlen⟩ := hgood
    rw [readResp_ok hlen]
    exact .toCheck hp rfl rfl
  · rw [readResp_bad fun bs hbs hlen => hgood ⟨bs, hbs, hlen⟩]
    exact .toIdle nofun rfl rfl

/-- A tick in WAIT (R85). -/
theorem busStep_waitTick {s : State} (hp : s.phase = .wait) (hfree : s.bus = none) : BusStep s .tick (waitTick s) := by
  by_cases hlast : s.snap.wait.toNat + 1 ≤ (s.cnt + 1#17).toNat
  · rw [waitTick_last hlast]
    exact .toRead hp hfree rfl rfl
  · rw [waitTick_more (by omega)]
    exact .stays rfl nofun nofun rfl rfl

/-- CHECK completes the command, in which nothing is outstanding (R87). -/
theorem busStep_checkStep {s : State} (hfree : s.bus = none) : BusStep s .internal (checkStep s) := by
  by_cases hmask : crcFailMask s.rx s.snap.nreply.val = 0#3
  · rw [checkStep_ok hmask]
    exact .toIdle nofun rfl hfree
  · rw [checkStep_fail hmask]
    exact .toIdle nofun rfl hfree

/-- From every state of the invariant an event moves the phase and the bus only in the ways of `BusStep`. -/
theorem fire_busStep {s t : State} {e : Event} (hinv : Inv s) (h : fire e s = .next t) : BusStep s e t := by
  have hf := fire_fires e s
  rw [h] at hf
  cases hf with
  | read a r hk => exact .stays (startIndex_read hk s) nofun nofun rfl rfl
  | write a r hk hw ho =>
    by_cases hr : r = .cmd
    · subst hr
      exact busStep_commandWrite hinv hk hw ho
    · have hstart := startIndex_write_other ho hr s
      cases r with
      | cmd => exact absurd rfl hr
      | _ => exact .stays hstart nofun nofun rfl rfl
  | writeAnswer a =>
    split
    next hp => exact busStep_writeResp hp a
    next hp => exact .stays rfl (fun _ _ => hp) nofun rfl rfl
  | readAnswer a =>
    split
    next hp => exact busStep_readResp hp a
    next hp => exact .stays rfl nofun (fun _ _ => hp) rfl rfl
  | tick =>
    split
    next hp => exact busStep_waitTick hp (hinv.bus_none (by simp [hp]) (by simp [hp]))
    next => exact .stays rfl nofun nofun rfl rfl
  | internal =>
    split
    next hp => exact busStep_checkStep (hinv.bus_none (by simp [hp]) (by simp [hp]))
    next => exact .stays rfl nofun nofun rfl rfl
  | reset => exact .toIdle nofun rfl rfl

/-! ### The transactions of the invariant and their lengths -/

/-- The outstanding BusWrite is that of WRITE, with the snapshot's frame (R28, R80). -/
theorem Inv.bus_write {s : State} (h : Inv s) {a : Addr} {bs : List Byte} (hb : s.bus = some (.write a bs)) :
    s.phase = .write ∧ bs = txFrame s.snap := by
  have hbus := h.bus
  rw [BusInv, hb] at hbus
  cases hp : s.phase with
  | write =>
    simp only [hp] at hbus
    cases hbus
    exact ⟨rfl, rfl⟩
  | _ => simp [hp] at hbus

/-- The outstanding BusRead is that of READ, of the snapshot's length (R28, R85). -/
theorem Inv.bus_read {s : State} (h : Inv s) {a : Addr} {n : Nat} (hb : s.bus = some (.read a n)) :
    s.phase = .read ∧ n = rxLength s.snap := by
  have hbus := h.bus
  rw [BusInv, hb] at hbus
  cases hp : s.phase with
  | read =>
    simp only [hp] at hbus
    cases hbus
    exact ⟨rfl, rfl⟩
  | _ => simp [hp] at hbus

/-- A write frame is the opcode and up to two groups of three bytes (R51). -/
theorem txFrame_length (sn : Snapshot) :
    (txFrame sn).length = 2 ∨ (txFrame sn).length = 5 ∨ (txFrame sn).length = 8 := by
  have hnpay : sn.npay.val = 0 ∨ sn.npay.val = 1 ∨ sn.npay.val = 2 := by omega
  rcases hnpay with h | h | h <;> simp [txFrame, Group.bytes, h]

/-- A read frame is one to three groups of three bytes (R52). -/
theorem rxLength_of_nreply_ne_zero {sn : Snapshot} (h : sn.nreply ≠ 0) :
    rxLength sn = 3 ∨ rxLength sn = 6 ∨ rxLength sn = 9 := by
  have hpos : sn.nreply.val ≠ 0 := fun h0 => h (Fin.ext h0)
  rw [rxLength]
  omega

/-! ### R38, read off from `BusStep` -/

section
variable {s t : State} {e : Event}

/-- An accepted start of a legal command issues its BusWrite. -/
theorem BusStep.write_of_start (h : BusStep s e t) {c : BitVec 4} (hc : startIndex s e = some c)
    (hlegal : c.toNat < 10) : ∃ bs, t.bus = some (.write s.taddr bs) := by
  cases h with
  | stays hstart => cases hstart.symm.trans hc
  | starts _ _ _ _ _ hbus => exact ⟨_, hbus⟩
  | toIdle hstart => exact absurd (hstart c hc) (by omega)
  | toWait | toRead | toCheck => cases hc

/-- A new BusWrite is that of an accepted start, with nothing outstanding before. -/
theorem BusStep.start_of_new_write (h : BusStep s e t) (hinv : Inv s) {a : Addr} {bs : List Byte}
    (ht : t.bus = some (.write a bs)) (hnew : s.bus ≠ some (.write a bs) ∨ s.phase ≠ .write) :
    s.bus = none ∧ s.phase = .idle ∧ ∃ c, startIndex s e = some c ∧ c.toNat < 10 := by
  cases h with
  | stays _ _ _ _ hbus =>
    have hs := hbus.symm.trans ht
    exact hnew.elim (absurd hs) (absurd (hinv.bus_write hs).1)
  | starts c hidle hfree hstart => exact ⟨hfree, hidle, _, hstart, legalIndex_lt c⟩
  | toIdle _ _ hbus | toWait _ _ _ hbus | toRead _ _ _ hbus | toCheck _ _ hbus => cases hbus.symm.trans ht

/-- A new BusRead is that of the tick that ends WAIT, with nothing outstanding before. -/
theorem BusStep.tick_of_new_read (h : BusStep s e t) (hinv : Inv s) {a : Addr} {n : Nat}
    (ht : t.bus = some (.read a n)) (hnew : s.bus ≠ some (.read a n) ∨ s.phase ≠ .read) :
    s.bus = none ∧ s.phase = .wait ∧ e = .tick ∧ a = s.snap.taddr ∧ n = 3 * s.snap.nreply.val := by
  cases h with
  | stays _ _ _ _ hbus =>
    have hs := hbus.symm.trans ht
    exact hnew.elim (absurd hs) (absurd (hinv.bus_read hs).1)
  | toRead hpre hfree _ hbus =>
    cases hbus.symm.trans ht
    exact ⟨hfree, hpre, rfl, rfl, rfl⟩
  | starts _ _ _ _ _ hbus | toIdle _ _ hbus | toWait _ _ _ hbus | toCheck _ _ hbus => cases hbus.symm.trans ht

/-- The answer to the BusWrite takes it away and leaves WRITE, a FAIL to IDLE. -/
theorem BusStep.after_write_answer {a : WriteAnswer} (h : BusStep s (.busWriteAnswer a) t) (hp : s.phase = .write) :
    t.bus = none ∧ t.phase ≠ .write ∧ t.phase ≠ .read ∧ (a = .fail → t.phase = .idle) := by
  cases h with
  | stays _ hwrite => exact absurd hp (hwrite a rfl)
  | starts _ hidle => cases hidle.symm.trans hp
  | toIdle _ hphase hbus => simp [hphase, hbus]
  | toWait _ _ hphase hbus => simp [hphase, hbus]

/-- The answer to the BusRead takes it away and leaves READ, a FAIL to IDLE. -/
theorem BusStep.after_read_answer {a : ReadAnswer} (h : BusStep s (.busReadAnswer a) t) (hp : s.phase = .read) :
    t.bus = none ∧ t.phase ≠ .write ∧ t.phase ≠ .read ∧ (a = .fail → t.phase = .idle) := by
  cases h with
  | stays _ _ hread => exact absurd hp (hread a rfl)
  | starts _ hidle => cases hidle.symm.trans hp
  | toIdle _ hphase hbus => simp [hphase, hbus]
  | toCheck _ hphase hbus => simp [hphase, hbus]

/-- WAIT is entered only from WRITE, on the answer OK, with a reply to come. -/
theorem BusStep.write_of_enters_wait (h : BusStep s e t) (ht : t.phase = .wait) (hs : s.phase ≠ .wait) :
    s.phase = .write ∧ e = .busWriteAnswer .ok ∧ s.snap.nreply ≠ 0 := by
  cases h with
  | stays _ _ _ hphase => exact absurd (hphase.symm.trans ht) hs
  | toWait hpre hn => exact ⟨hpre, rfl, hn⟩
  | starts _ _ _ _ hphase | toIdle _ hphase | toRead _ _ hphase | toCheck _ hphase => cases hphase.symm.trans ht

/-- A BusWrite is 2, 5 or 8 bytes long. -/
theorem BusStep.write_length (h : BusStep s e t) (hinv : Inv s) {a : Addr} {bs : List Byte}
    (ht : t.bus = some (.write a bs)) : bs.length = 2 ∨ bs.length = 5 ∨ bs.length = 8 := by
  cases h with
  | stays _ _ _ _ hbus =>
    obtain ⟨-, rfl⟩ := hinv.bus_write (hbus.symm.trans ht)
    exact txFrame_length _
  | starts _ _ _ _ _ hbus =>
    cases hbus.symm.trans ht
    exact txFrame_length _
  | toIdle _ _ hbus | toWait _ _ _ hbus | toRead _ _ _ hbus | toCheck _ _ hbus => cases hbus.symm.trans ht

/-- A BusRead is of 3, 6 or 9 bytes. -/
theorem BusStep.read_length (h : BusStep s e t) (hinv : Inv s) {a : Addr} {n : Nat}
    (ht : t.bus = some (.read a n)) : n = 3 ∨ n = 6 ∨ n = 9 := by
  cases h with
  | stays _ _ _ _ hbus =>
    obtain ⟨hp, rfl⟩ := hinv.bus_read (hbus.symm.trans ht)
    exact rxLength_of_nreply_ne_zero (hinv.reply.reply_expected (.inr (.inl hp)))
  | toRead hpre _ _ hbus =>
    cases hbus.symm.trans ht
    exact rxLength_of_nreply_ne_zero (hinv.reply.reply_expected (.inl hpre))
  | starts _ _ _ _ _ hbus | toIdle _ _ hbus | toWait _ _ _ hbus | toCheck _ _ hbus => cases hbus.symm.trans ht

end

/-- Settles O36: the step moves the phase and the bus by `BusStep`, and every clause of R38 is read off from its
cases. -/
theorem oneWriteAndAtMostOneReadPerCommand : Obligations.OneWriteAndAtMostOneReadPerCommand := by
  intro s t hinv h
  have hinv' : Inv (takeEvent s) := hinv.setEnv _
  have hb : BusStep (takeEvent s) (nextEvent s.env) t := fire_busStep hinv' h
  refine ⟨fun c => hb.write_of_start, fun a bs => hb.start_of_new_write hinv', fun a n => hb.tick_of_new_read hinv',
    fun a hp he => ?_, fun a hp he => ?_, hb.write_of_enters_wait, fun a bs => hb.write_length hinv',
    fun a n => hb.read_length hinv'⟩
  · rw [he] at hb
    exact hb.after_write_answer hp
  · rw [he] at hb
    exact hb.after_read_answer hp

end Sys2Proof.Machine
end

section
/-! The CRC-8 function (40_crc.md): the two forms of its inner step agree, a whole byte is a bijection of the register,
and so a valid group is determined by any two of its three bytes; then the statements about it. -/

namespace Sys2Proof.Machine

/-! ### One step of the register, and one byte -/

/-- The bit that R58 and R60 test is the top bit. -/
theorem and_0x80_ne_zero_iff (r : Byte) : r &&& 0x80#8 ≠ 0#8 ↔ r.msb = true := by
  rw [show 0x80#8 = BitVec.twoPow 8 7 from rfl, BitVec.and_twoPow, BitVec.msb_eq_getLsbD_last]
  cases r.getLsbD 7 <;> simp

/-- The register step as a shift and a correction by the polynomial (R59). -/
theorem crcStepAlt_eq (r : Byte) : crcStepAlt r = (r <<< 1) ^^^ (if r.msb then 0x31#8 else 0#8) := by
  simp only [crcStepAlt, and_0x80_ne_zero_iff]
  cases r.msb <;> simp

/-- The source's step on byte and register is the other form's step on their XOR (R60). -/
theorem crcBit_xor (b r : Byte) : (crcBit b r).2 ^^^ (crcBit b r).1 = crcStepAlt (r ^^^ b) := by
  simp only [crcBit, crcStepAlt, BitVec.xor_comm b r, BitVec.shiftLeft_xor_distrib]
  split
  · ac_rfl
  · rfl

/-- After `n` steps the two forms' registers differ by the bits of the byte that are still to come. -/
theorem crcBits_eq (n : Nat) (b r : Byte) : crcBits n b r = crcStepsAlt n (r ^^^ b) ^^^ (b <<< n) := by
  induction n generalizing b r with
  | zero => simp [crcBits, crcStepsAlt]
  | succ n ih =>
    have hbyte : (crcBit b r).1 <<< n = b <<< (n + 1) := by rw [Nat.add_comm, BitVec.shiftLeft_add]; rfl
    rw [crcBits, ih, crcBit_xor, hbyte, crcStepsAlt]

/-- A whole byte: XORed in first, then 8 register steps. -/
theorem crcByte_eq (r b : Byte) : crcByte r b = crcStepsAlt 8 (r ^^^ b) := by
  rw [crcByte, crcBits_eq, BitVec.shiftLeft_eq_zero (Nat.le_refl 8), BitVec.xor_zero]

/-! ### The register step loses nothing -/

/-- Bit 0 of the polynomial is 1, so the step keeps the bit it shifts out. -/
theorem crcStepAlt_getLsbD_zero (r : Byte) : (crcStepAlt r).getLsbD 0 = r.msb := by
  rw [crcStepAlt_eq]
  cases r.msb <;> simp

theorem crcStepAlt_injective : Function.Injective crcStepAlt := by
  intro a b h
  have hmsb : a.msb = b.msb := by rw [← crcStepAlt_getLsbD_zero a, h, crcStepAlt_getLsbD_zero]
  have hshift : a <<< 1 = b <<< 1 := by
    rwa [crcStepAlt_eq, crcStepAlt_eq, hmsb, BitVec.xor_left_inj] at h
  apply BitVec.eq_of_getLsbD_eq
  intro i hi
  by_cases htop : i = 7
  · subst htop
    simpa only [BitVec.msb_eq_getLsbD_last] using hmsb
  · have hlt : i + 1 < 8 := by omega
    simpa [hlt, BitVec.getLsbD_eq_getElem hi] using congrArg (BitVec.getLsbD · (i + 1)) hshift

theorem crcStepsAlt_injective (n : Nat) : Function.Injective (crcStepsAlt n) := by
  induction n with
  | zero => exact Function.injective_id
  | succ n ih => exact ih.comp crcStepAlt_injective

/-- No two registers meet on the same byte. -/
theorem crcByte_left_inj {r r' b : Byte} : crcByte r b = crcByte r' b ↔ r = r' := by
  rw [crcByte_eq, crcByte_eq, (crcStepsAlt_injective 8).eq_iff, BitVec.xor_left_inj]

/-- From one register, no two bytes lead to the same register. -/
theorem crcByte_right_inj {r b b' : Byte} : crcByte r b = crcByte r b' ↔ b = b' := by
  rw [crcByte_eq, crcByte_eq, (crcStepsAlt_injective 8).eq_iff, BitVec.xor_right_inj]

/-- From every register, some byte leads to any given register: there are only finitely many. -/
theorem crcByte_surjective (r : Byte) : Function.Surjective (crcByte r) :=
  Finite.injective_iff_surjective.mp fun _ _ => crcByte_right_inj.mp

/-! ### Two bytes and their checksum -/

theorem crc8_pair (m l : Byte) : crc8 [m, l] = crcByte (crcByte 0xFF#8 m) l := rfl

theorem crc8_pair_left_inj {m m' l : Byte} : crc8 [m, l] = crc8 [m', l] ↔ m = m' := by
  rw [crc8_pair, crc8_pair, crcByte_left_inj, crcByte_right_inj]

theorem crc8_pair_right_inj {m l l' : Byte} : crc8 [m, l] = crc8 [m, l'] ↔ l = l' := crcByte_right_inj

theorem msb_append_lsb (w : Half) : msb w ++ lsb w = w := BitVec.extractLsb'_append_extractLsb'

@[simp] theorem msb_append (m l : Byte) : msb (m ++ l) = m := BitVec.extractLsb'_append_eq_left

@[simp] theorem lsb_append (m l : Byte) : lsb (m ++ l) = l := BitVec.extractLsb'_append_eq_right

/-- A word is determined by its top byte and its CRC. -/
theorem eq_of_msb_eq_of_crcWord_eq {w w' : Half} (hm : msb w = msb w') (hc : crcWord w = crcWord w') : w = w' := by
  have hl : lsb w = lsb w' := by
    rw [crcWord, crcWord, hm] at hc
    exact crc8_pair_right_inj.mp hc
  rw [← msb_append_lsb w, hm, hl, msb_append_lsb]

/-- Every top byte belongs to a word of a given CRC. -/
theorem exists_msb_crcWord (m c : Byte) : ∃ w, msb w = m ∧ crcWord w = c := by
  obtain ⟨l, hl⟩ := crcByte_surjective (crcByte 0xFF#8 m) c
  exact ⟨m ++ l, msb_append m l, by rw [crcWord, msb_append, lsb_append, crc8_pair, hl]⟩

/-- The words of one CRC are counted by their top bytes. -/
theorem card_crcWord_eq (c : Byte) :
    (Finset.univ.filter fun w : Fin 65536 => crcWord (BitVec.ofFin w) = c).card = 256 := by
  have hbytes : (Finset.univ : Finset Byte).card = 256 := by
    rw [Finset.card_univ, Fintype.card_congr BitVec.equivFin.toEquiv, Fintype.card_fin]
    rfl
  rw [← hbytes]
  refine Finset.card_bij (fun w _ => msb (BitVec.ofFin w)) (fun _ _ => Finset.mem_univ _) ?_ ?_
  · intro w hw w' hw' hm
    have hc : crcWord (BitVec.ofFin w) = crcWord (BitVec.ofFin w') :=
      (Finset.mem_filter.mp hw).2.trans (Finset.mem_filter.mp hw').2.symm
    exact congrArg BitVec.toFin (eq_of_msb_eq_of_crcWord_eq hm hc)
  · intro m _
    obtain ⟨w, hm, hc⟩ := exists_msb_crcWord m c
    exact ⟨w.toFin, Finset.mem_filter.mpr ⟨Finset.mem_univ _, hc⟩, hm⟩

/-! ### Groups and single-bit errors -/

theorem grpOk_iff (g : Group) : grpOk g = true ↔ crc8 [g.g0, g.g1] = g.g2 := beq_iff_eq

theorem grpOk_enc (w : Half) : grpOk (enc w) = true := (grpOk_iff _).mpr rfl

theorem dec_enc (w : Half) : dec (enc w) = w := msb_append_lsb w

/-- A valid group's last byte is determined by the other two. -/
theorem g2_eq_of_grpOk {g g' : Group} (h : grpOk g = true) (h' : grpOk g' = true) (h0 : g.g0 = g'.g0)
    (h1 : g.g1 = g'.g1) : g.g2 = g'.g2 := by
  rw [← (grpOk_iff g).mp h, ← (grpOk_iff g').mp h', h0, h1]

/-- A valid group's middle byte is determined by the other two. -/
theorem g1_eq_of_grpOk {g g' : Group} (h : grpOk g = true) (h' : grpOk g' = true) (h0 : g.g0 = g'.g0)
    (h2 : g.g2 = g'.g2) : g.g1 = g'.g1 := by
  rw [← (grpOk_iff g).mp h, ← (grpOk_iff g').mp h', h0] at h2
  exact crc8_pair_right_inj.mp h2

/-- A valid group's first byte is determined by the other two. -/
theorem g0_eq_of_grpOk {g g' : Group} (h : grpOk g = true) (h' : grpOk g' = true) (h1 : g.g1 = g'.g1)
    (h2 : g.g2 = g'.g2) : g.g0 = g'.g0 := by
  rw [← (grpOk_iff g).mp h, ← (grpOk_iff g').mp h', h1] at h2
  exact crc8_pair_left_inj.mp h2

/-- The group whose 24 bits, in wire order from the top, are `v` (R53). -/
def groupOfBits (v : BitVec 24) : Group := ⟨v.extractLsb' 16 8, v.extractLsb' 8 8, v.extractLsb' 0 8⟩

/-- A byte of the 24 bits stays when a bit outside it is flipped. -/
theorem extractLsb'_flip_outside (v : BitVec 24) {j k : Nat} (h : j < k ∨ k + 8 ≤ j) :
    (v ^^^ (1#24 <<< j)).extractLsb' k 8 = v.extractLsb' k 8 := by
  apply BitVec.eq_of_getLsbD_eq
  intro i hi
  have hij : j ≠ k + i := by omega
  simp [← BitVec.twoPow_eq, hij]

/-- A byte of the 24 bits changes when a bit inside it is flipped. -/
theorem extractLsb'_flip_inside (v : BitVec 24) {j k : Nat} (hj : j < 24) (hk : k ≤ j) (hk8 : j < k + 8) :
    (v ^^^ (1#24 <<< j)).extractLsb' k 8 ≠ v.extractLsb' k 8 := by
  intro h
  have hi : j - k < 8 := by omega
  have hkj : k + (j - k) = j := by omega
  simpa [← BitVec.twoPow_eq, hi, hkj, hj] using congrArg (BitVec.getLsbD · (j - k)) h

/-- Flipping a bit changes one byte of the group, and no two valid groups differ in one byte only (R61). -/
theorem grpOk_flip {v : BitVec 24} (h : grpOk (groupOfBits v) = true) {j : Nat} (hj : j < 24) :
    grpOk (groupOfBits (v ^^^ (1#24 <<< j))) = false := by
  rw [Bool.eq_false_iff]
  intro hbad
  have hout := @extractLsb'_flip_outside v j
  have hin := @extractLsb'_flip_inside v j
  obtain hlow | hmid | hhigh : j < 8 ∨ (8 ≤ j ∧ j < 16) ∨ 16 ≤ j := by omega
  · exact hin hj (Nat.zero_le j) (by omega)
      (g2_eq_of_grpOk hbad h (hout (.inl (by omega))) (hout (.inl (by omega))))
  · exact hin hj hmid.1 (by omega)
      (g1_eq_of_grpOk hbad h (hout (.inl (by omega))) (hout (.inr (by omega))))
  · exact hin hj hhigh (by omega)
      (g0_eq_of_grpOk hbad h (hout (.inr (by omega))) (hout (.inr (by omega))))

/-- A group is read back from its three bytes in a row. -/
theorem groupOfBits_append (g : Group) : groupOfBits (g.g0 ++ g.g1 ++ g.g2) = g := by
  have h0 : (g.g0 ++ g.g1 ++ g.g2).extractLsb' 16 8 = g.g0 := by
    rw [BitVec.append_assoc]
    exact BitVec.extractLsb'_append_eq_left
  have h1 : (g.g0 ++ g.g1 ++ g.g2).extractLsb' 8 8 = g.g1 := by
    rw [BitVec.extractLsb'_append_eq_of_le (Nat.le_refl 8)]
    exact BitVec.extractLsb'_append_eq_right
  have h2 : (g.g0 ++ g.g1 ++ g.g2).extractLsb' 0 8 = g.g2 := BitVec.extractLsb'_append_eq_right
  rw [groupOfBits, h0, h1, h2]

/-! ### The statements -/

/-- Settles O2: both forms take every byte to the same register, and the bytes are taken in the same order. -/
theorem crcFormulationsAgree : Obligations.CrcFormulationsAgree := by
  intro bytes
  rw [crc8, crc8Alt, funext₂ crcByte_eq]

/-- Settles O3: a byte permutes the registers, so each top byte gives one word of a given CRC, and no valid group is
one bit away from another. -/
theorem crcDetectsSingleBitErrors : Obligations.CrcDetectsSingleBitErrors := by
  refine ⟨fun bytes => ⟨crc8 bytes, rfl⟩, rfl, card_crcWord_eq, fun w j hj => ?_⟩
  have hgood : grpOk (groupOfBits ((enc w).g0 ++ (enc w).g1 ++ (enc w).g2)) = true := by
    rw [groupOfBits_append, grpOk_enc]
  exact grpOk_flip hgood hj

/-- Settles O4: the checksum is the one that is checked, and the two bytes are the word's. -/
theorem encodedWordChecksAndDecodes : Obligations.EncodedWordChecksAndDecodes :=
  fun w => ⟨grpOk_enc w, dec_enc w⟩

end Sys2Proof.Machine
end

section
/-! The engine (42_engine.md R79 to R87): the start of a command, the bus answers, CHECK, and the overrun bit; then the
table of R79. -/

namespace Sys2Proof.Machine
open Sys2Proof.Claims

/-! ### The steps of the engine's own events -/

/-- In WRITE the answer to the BusWrite takes the effect of R84. -/
theorem step_writeAnswer {s : State} (hp : s.phase = .write) (a : WriteAnswer) :
    step (s.place [.busWriteAnswer a]) = .next (writeResp a s) := by
  rw [step_place, place_nil, fire, if_pos hp]

/-- In READ the answer to the BusRead takes the effect of R86. -/
theorem step_readAnswer {s : State} (hp : s.phase = .read) (a : ReadAnswer) :
    step (s.place [.busReadAnswer a]) = .next (readResp a s) := by
  rw [step_place, place_nil, fire, if_pos hp]

/-- In CHECK the engine's own step is that of R87. -/
theorem step_check {s : State} (hp : s.phase = .check) : step (s.place [.internal]) = .next (checkStep s) := by
  rw [step_place, place_nil, fire, if_pos hp]

/-- A RegWrite to CMD is the CMD write of the low four bits (R47). -/
theorem step_cmdWrite (v : Word) (s : State) :
    step (s.place [.host ⟨.write, 32, 0x04, v⟩]) = .next (commandWrite (v.extractLsb' 0 4) s) :=
  step_write .cmd v s

/-! ### Starting a command -/

/-- Settles O18: the step is the CMD write of the index, accepted while BUSY = 0. -/
theorem acceptedCmdWriteStartsTheCommand : Obligations.AcceptedCmdWriteStartsTheCommand := by
  intro s v hb
  refine ⟨fun c hc => ?_, fun hc => ?_⟩
  · rw [step_cmdWrite, hc, commandWrite_legal hb]
    rfl
  · rw [step_cmdWrite, commandWrite_illegal hb hc]

/-- The six illegal instructions are those of the indices from 10 up (R49). -/
theorem illegalCommands_index {p : Instr × BitVec 4} (hp : p ∈ illegalCommands) :
    p.1 = commandOf p.2 ∧ 10 ≤ p.2.toNat := by
  revert p
  decide

/-- Settles O21: the instruction is the CMD write of an index from 10 up, which completes at once. -/
theorem illegalIndicesCompleteAtOnce : Obligations.IllegalIndicesCompleteAtOnce := by
  intro s hb p hp
  obtain ⟨hinstr, hindex⟩ := illegalCommands_index hp
  refine ⟨_, ?_, ?_, rfl⟩
  · rw [hinstr, exec_commandOf, commandWrite_illegal hb hindex]
  · rfl

/-! ### The bus answers -/

/-- Settles O23: the three cases of R84. -/
theorem writeAnswerEndsOrBeginsTheWait : Obligations.WriteAnswerEndsOrBeginsTheWait := by
  intro s hp
  refine ⟨?_, fun hn => ?_, fun hn => ?_⟩
  · rw [step_writeAnswer hp, writeResp_fail]
  · rw [step_writeAnswer hp, writeResp_ok_writeOnly hn]
  · rw [step_writeAnswer hp, writeResp_ok_read hn]

/-- Settles O25: the two cases of R86, with the length of R40. -/
theorem readAnswerFailsOrGoesToCheck : Obligations.ReadAnswerFailsOrGoesToCheck := by
  intro s a hp
  refine ⟨fun hbad => ?_, fun bs ha hlen => ?_⟩
  · rw [step_readAnswer hp, readResp_bad hbad]
  · rw [step_readAnswer hp, ha, readResp_ok hlen]

/-! ### CHECK -/

/-- A group fails when it is one of the `n` and breaks R53. -/
theorem groupFails_iff (r : List Byte) (n k : Nat) : groupFails r n k = true ↔ k < n ∧ ¬groupGood r k := by
  rw [groupFails, Bool.and_eq_true, decide_eq_true_iff, Bool.not_eq_true', ← Bool.not_eq_true, grpOk_iff]
  rfl

/-- The mask of a reply of up to three groups is 0 exactly when every group passes (R87). -/
theorem crcFailMask_eq_zero_iff_groupGood {r : List Byte} {n : Nat} (hn : n ≤ 3) :
    crcFailMask r n = 0#3 ↔ ∀ k < n, groupGood r k := by
  simp only [crcFailMask_eq_zero_iff, ← Bool.not_eq_true, groupFails_iff, not_and, not_not]
  exact ⟨fun h k hk => h k (by omega) hk, fun h k _ hk => h k hk⟩

/-- Settles O26: the mask is 0 exactly when every group passes, and its bits are the failing groups. -/
theorem checkIsAllOrNothing : Obligations.CheckIsAllOrNothing := by
  intro s hp _
  have hzero := crcFailMask_eq_zero_iff_groupGood (r := s.rx) (Nat.lt_succ_iff.mp s.snap.nreply.isLt)
  refine ⟨fun ⟨k, hk, hbad⟩ => ?_, fun hgood => ?_⟩
  · have hmask : crcFailMask s.rx s.snap.nreply.val ≠ 0#3 := fun h => hbad (hzero.mp h k hk)
    refine ⟨crcFailMask s.rx s.snap.nreply.val, fun j hj => ?_, ?_⟩
    · rw [crcFailMask_getLsbD _ _ _ hj, groupFails_iff]
    · rw [step_check hp, checkStep_fail hmask]
  · refine ⟨_, _, _, ?_, replyWords_getD s.rx _ 0 _, replyWords_getD s.rx _ 1 _, replyWords_getD s.rx _ 2 _⟩
    rw [step_check hp, checkStep_ok (hzero.mpr hgood)]

/-! ### The overrun bit -/

/-- The answer to the BusWrite leaves OVR alone (R84). -/
theorem writeResp_ovr (a : WriteAnswer) (s : State) : (writeResp a s).status.ovr = s.status.ovr := by
  cases a with
  | fail => rw [writeResp_fail]
  | ok =>
    by_cases hn : s.snap.nreply = 0
    · rw [writeResp_ok_writeOnly hn]
    · rw [writeResp_ok_read hn]

/-- The answer to the BusRead leaves OVR alone (R86). -/
theorem readResp_ovr (a : ReadAnswer) (s : State) : (readResp a s).status.ovr = s.status.ovr := by
  by_cases hgood : ∃ bs, a = .ok bs ∧ bs.length = rxLength s.snap
  · obtain ⟨bs, rfl, hlen⟩ := hgood
    rw [readResp_ok hlen]
  · rw [readResp_bad fun bs hbs hlen => hgood ⟨bs, hbs, hlen⟩]

/-- A tick in WAIT leaves STATUS alone (R85). -/
theorem waitTick_status (s : State) : (waitTick s).status = s.status := by
  by_cases hlast : s.snap.wait.toNat + 1 ≤ (s.cnt + 1#17).toNat
  · rw [waitTick_last hlast]
  · rw [waitTick_more (by omega)]

/-- CHECK leaves OVR alone (R87). -/
theorem checkStep_ovr (s : State) : (checkStep s).status.ovr = s.status.ovr := by
  by_cases hmask : crcFailMask s.rx s.snap.nreply.val = 0#3
  · rw [checkStep_ok hmask]
  · rw [checkStep_fail hmask]

/-- A CMD write sets OVR while BUSY = 1, and otherwise keeps it (R80, R82, R83). -/
theorem commandWrite_ovr (c : BitVec 4) (s : State) :
    (commandWrite c s).status.ovr = (s.status.busy || s.status.ovr) := by
  cases hb : s.status.busy with
  | true => rw [commandWrite_busy hb]; rfl
  | false =>
    rcases cmd_cases c with ⟨d, rfl⟩ | hc
    · rw [commandWrite_legal hb]; rfl
    · rw [commandWrite_illegal hb hc]; rfl

/-- The access of kind `k` at a register's offset is one to that register. -/
theorem accesses_self {a : HostAccess} {k : AccessKind} {r : Reg} (hk : a.kind = k) (hw : a.width = 32)
    (ho : a.off = r.offset) : accesses (.host a) k r = true := by
  simp [accesses, hk, hw, ho]

/-- A write that clears OVR is one of 1 to bit 11 of STATUS (R19, R83). -/
theorem regWrite_clears_ovr {r : Reg} {v : Word} {s : State} (hs : s.status.ovr = true)
    (ht : (regWrite r v s).status.ovr = false) : r = .status ∧ v.getLsbD 11 = true := by
  cases r with
  | status => exact ⟨rfl, by simpa [regWrite, acknowledge_eq, hs] using ht⟩
  | cmd => simp [regWrite, commandWrite_ovr, hs] at ht
  | _ => exact absurd (hs.symm.trans ht) (by decide)

/-- An event that clears OVR is a reset or the write of 1 to its bit of STATUS (R83). -/
theorem fire_clears_ovr {s t : State} {e : Event} (h : fire e s = .next t) (hs : s.status.ovr = true)
    (ht : t.status.ovr = false) :
    e = .reset ∨ (accesses e .write .status = true ∧ (writtenWord e).getLsbD 11 = true) := by
  have hne : t.status.ovr ≠ s.status.ovr := by simp [hs, ht]
  have hf := fire_fires e s
  rw [h] at hf
  cases hf with
  | read => exact absurd rfl hne
  | write a r hk hw ho =>
    obtain ⟨rfl, hbit⟩ := regWrite_clears_ovr hs ht
    exact .inr ⟨accesses_self hk hw ho, hbit⟩
  | writeAnswer a =>
    split at hne
    · exact absurd (writeResp_ovr a s) hne
    · exact absurd rfl hne
  | readAnswer a =>
    split at hne
    · exact absurd (readResp_ovr a s) hne
    · exact absurd rfl hne
  | tick =>
    split at hne
    · exact absurd (congrArg Status.ovr (waitTick_status s)) hne
    · exact absurd rfl hne
  | internal =>
    split at hne
    · exact absurd (checkStep_ovr s) hne
    · exact absurd rfl hne
  | reset => exact .inl rfl

/-- Settles O22: a CMD write while BUSY = 1 is an overrun whatever its index, and OVR falls only as `fire_clears_ovr`
says. -/
theorem busyCmdWriteOnlySetsOverrun : Obligations.BusyCmdWriteOnlySetsOverrun := by
  refine ⟨fun s v hb => ⟨?_, ?_⟩, fun s t hs hstep ht => fire_clears_ovr hstep hs ht⟩
  · rw [step_cmdWrite, commandWrite_busy hb]
  · rw [exec_commandOf, commandWrite_busy hb]

/-! ### The table of R79 -/

/-- The event is on no row of the table that leaves the phase or completes a command. -/
def OffTable (s : State) (e : Event) : Prop := phaseAfter s e = s.phase ∧ outcomeOf s e = none

/-- A host access that starts no command is on no row. -/
theorem offTable_host {s : State} {a : HostAccess} (h : startIndex s (.host a) = none) : OffTable s (.host a) := by
  cases hp : s.phase <;> simp [OffTable, phaseAfter, outcomeOf, hp, h]

/-- The answer to a BusWrite is on a row only in WRITE. -/
theorem offTable_writeAnswer {s : State} (h : s.phase ≠ .write) (a : WriteAnswer) :
    OffTable s (.busWriteAnswer a) := by
  cases hp : s.phase with
  | write => exact absurd hp h
  | _ => simp [OffTable, phaseAfter, outcomeOf, startIndex, accesses, hp]

/-- The answer to a BusRead is on a row only in READ. -/
theorem offTable_readAnswer {s : State} (h : s.phase ≠ .read) (a : ReadAnswer) : OffTable s (.busReadAnswer a) := by
  cases hp : s.phase with
  | read => exact absurd hp h
  | _ => simp [OffTable, phaseAfter, outcomeOf, startIndex, accesses, hp]

/-- A tick is on a row only in WAIT. -/
theorem offTable_tick {s : State} (h : s.phase ≠ .wait) : OffTable s .tick := by
  cases hp : s.phase with
  | wait => exact absurd hp h
  | _ => simp [OffTable, phaseAfter, outcomeOf, startIndex, accesses, hp]

/-- CHECK's own step is on a row only in CHECK. -/
theorem offTable_internal {s : State} (h : s.phase ≠ .check) : OffTable s .internal := by
  cases hp : s.phase with
  | check => exact absurd hp h
  | _ => simp [OffTable, phaseAfter, outcomeOf, startIndex, accesses, hp]

/-- What R79 says of an event from `s` to `t`: the phase the table gives, the outcome of a completing row, and no
completion on any other row. -/
structure FollowsTable (s : State) (e : Event) (t : State) : Prop where
  phase : t.phase = phaseAfter s e
  completes : ∀ k, outcomeOf s e = some k → t.status.done = true ∧ t.status.busy = false ∧ t.status.err = k
  noneElse : outcomeOf s e = none → t.status.done = true → s.status.done = true

section
variable {s t : State} {e : Event}

/-- A row that completes the command with outcome `k`. -/
theorem FollowsTable.of_completion {k : ErrKind} (hphase : t.phase = phaseAfter s e) (ho : outcomeOf s e = some k)
    (hdone : t.status.done = true) (hbusy : t.status.busy = false) (herr : t.status.err = k) : FollowsTable s e t where
  phase := hphase
  completes _ hj := ⟨hdone, hbusy, herr.trans (Option.some.inj (ho.symm.trans hj))⟩
  noneElse hn := nomatch ho.symm.trans hn

/-- A row that completes no command, and so does not set DONE. -/
theorem FollowsTable.of_no_completion (hphase : t.phase = phaseAfter s e) (ho : outcomeOf s e = none)
    (hdone : t.status.done = true → s.status.done = true) : FollowsTable s e t where
  phase := hphase
  completes _ hk := nomatch ho.symm.trans hk
  noneElse _ := hdone

/-- An event on no row, which keeps the phase and sets no DONE. -/
theorem OffTable.follows (h : OffTable s e) (hphase : t.phase = s.phase)
    (hdone : t.status.done = true → s.status.done = true) : FollowsTable s e t :=
  .of_no_completion (hphase.trans h.1.symm) h.2 hdone

end

/-- A CMD write is a row only when accepted, and only from IDLE: a start, or ILLEGAL_CMD (R80, R82). -/
theorem follows_commandWrite {s : State} (hinv : Inv s) {a : HostAccess} (hk : a.kind = .write) (hw : a.width = 32)
    (ho : a.off = Reg.offset .cmd) : FollowsTable s (.host a) (commandWrite (cmdField a.data) s) := by
  cases hb : s.status.busy with
  | true =>
    rw [commandWrite_busy hb]
    exact (offTable_host (startIndex_busy hb _)).follows rfl id
  | false =>
    have hstart := startIndex_accepted hb hk hw ho
    have hidle := (hinv.idle hb).1
    rcases cmd_cases (cmdField a.data) with ⟨c, hc⟩ | hc
    · rw [hc] at hstart ⊢
      rw [commandWrite_legal hb]
      have hlt := legalIndex_lt c
      refine .of_no_completion ?_ ?_ nofun
      · simp only [phaseAfter, hidle, hstart, reduceCtorEq, if_false, if_pos (Nat.le_of_lt_succ hlt)]
      · simp only [outcomeOf, hidle, hstart, if_neg (Nat.not_le.mpr hlt)]
    · rw [commandWrite_illegal hb hc]
      refine .of_completion (k := .illegal) ?_ ?_ rfl rfl rfl
      · simp only [phaseAfter, hidle, hstart, reduceCtorEq, if_false, if_neg (Nat.not_le.mpr hc)]
      · simp only [outcomeOf, hidle, hstart, if_pos hc]

/-- The three rows out of WRITE (R84). -/
theorem follows_writeResp {s : State} (hp : s.phase = .write) (a : WriteAnswer) :
    FollowsTable s (.busWriteAnswer a) (writeResp a s) := by
  cases a with
  | fail =>
    rw [writeResp_fail]
    exact .of_completion (k := .io) (by simp [phaseAfter, hp]) (by simp [outcomeOf, hp]) rfl rfl rfl
  | ok =>
    by_cases hn : s.snap.nreply = 0
    · rw [writeResp_ok_writeOnly hn]
      exact .of_completion (k := .none) (by simp [phaseAfter, hp, hn]) (by simp [outcomeOf, hp, hn]) rfl rfl rfl
    · rw [writeResp_ok_read hn]
      exact .of_no_completion (by simp [phaseAfter, hp, hn]) (by simp [outcomeOf, hp, hn]) id

/-- In WAIT the 17-bit counter does not wrap at a tick (R28, R85). -/
theorem Inv.wait_cnt_succ {s : State} (h : Inv s) (hp : s.phase = .wait) :
    (s.cnt + 1#17).toNat = s.cnt.toNat + 1 := by
  have hcnt := h.reply.wait_cnt hp
  have hwait := s.snap.wait.isLt
  simp only [BitVec.toNat_add, BitVec.toNat_ofNat]
  omega

/-- The two rows out of WAIT (R85). -/
theorem follows_waitTick {s : State} (hinv : Inv s) (hp : s.phase = .wait) : FollowsTable s .tick (waitTick s) := by
  have hsucc := hinv.wait_cnt_succ hp
  have hout : outcomeOf s .tick = none := by simp [outcomeOf, hp]
  have hdone : (waitTick s).status.done = true → s.status.done = true := by rw [waitTick_status]; exact id
  refine .of_no_completion ?_ hout hdone
  by_cases hlast : s.snap.wait.toNat + 1 ≤ (s.cnt + 1#17).toNat
  · have hn : ¬s.cnt.toNat + 1 < s.snap.wait.toNat + 1 := by omega
    simp only [waitTick_last hlast, phaseAfter, hp, reduceCtorEq, if_false, if_neg hn]
  · have hmore : s.cnt.toNat + 1 < s.snap.wait.toNat + 1 := by omega
    simp only [waitTick_more (Nat.not_le.mp hlast), phaseAfter, hp, reduceCtorEq, if_false, if_pos hmore]

/-- The three rows out of READ (R40, R86). -/
theorem follows_readResp {s : State} (hp : s.phase = .read) (a : ReadAnswer) :
    FollowsTable s (.busReadAnswer a) (readResp a s) := by
  cases a with
  | fail =>
    rw [readResp_bad (a := .fail) nofun]
    exact .of_completion (k := .io) (by simp [phaseAfter, hp]) (by simp [outcomeOf, hp]) rfl rfl rfl
  | ok bs =>
    by_cases hlen : bs.length = 3 * s.snap.nreply.val
    · rw [readResp_ok hlen]
      exact .of_no_completion (by simp [phaseAfter, hp, hlen]) (by simp [outcomeOf, hp, hlen]) id
    · have hbad : ∀ bs', ReadAnswer.ok bs = .ok bs' → bs'.length ≠ rxLength s.snap := by rintro _ ⟨⟩; exact hlen
      rw [readResp_bad hbad]
      exact .of_completion (k := .io) (by simp [phaseAfter, hp, hlen]) (by simp [outcomeOf, hp, hlen]) rfl rfl rfl

/-- CHECK's outcome in the table is decided by the mask of failing groups (R87). -/
theorem outcomeOf_check {s : State} (hp : s.phase = .check) :
    outcomeOf s .internal = some (if crcFailMask s.rx s.snap.nreply.val = 0#3 then .none else .protocol) := by
  simp only [outcomeOf, hp, crcFailMask_eq_zero_iff_groupGood (Nat.lt_succ_iff.mp s.snap.nreply.isLt), groupGood,
    replyByte, apply_ite some]

/-- The two rows out of CHECK (R87). -/
theorem follows_checkStep {s : State} (hp : s.phase = .check) : FollowsTable s .internal (checkStep s) := by
  have hphase : phaseAfter s .internal = .idle := by simp [phaseAfter, hp]
  have hout := outcomeOf_check hp
  by_cases hmask : crcFailMask s.rx s.snap.nreply.val = 0#3
  · rw [checkStep_ok hmask]
    rw [if_pos hmask] at hout
    exact .of_completion hphase.symm hout rfl rfl rfl
  · rw [checkStep_fail hmask]
    rw [if_neg hmask] at hout
    exact .of_completion hphase.symm hout rfl rfl rfl

/-- A reset leads to IDLE from every phase and completes nothing (R79, R109). -/
theorem follows_reset (s : State) : FollowsTable s .reset (resetStep s) := by
  have hout : outcomeOf s .reset = none := by cases hp : s.phase <;> simp [outcomeOf, hp, startIndex, accesses]
  exact .of_no_completion rfl hout nofun

/-- A write to a register other than CMD keeps the phase and sets no DONE (R20). -/
theorem regWrite_keeps_phase_done {r : Reg} (hr : r ≠ .cmd) (v : Word) (s : State) :
    (regWrite r v s).phase = s.phase ∧ ((regWrite r v s).status.done = true → s.status.done = true) := by
  cases r with
  | cmd => exact absurd rfl hr
  | status => exact ⟨rfl, fun h => (Bool.and_eq_true_iff.mp h).1⟩
  | _ => exact ⟨rfl, id⟩

/-- From every state of the invariant an event follows the table of R79. -/
theorem fire_followsTable {s t : State} {e : Event} (hinv : Inv s) (h : fire e s = .next t) : FollowsTable s e t := by
  have hf := fire_fires e s
  rw [h] at hf
  cases hf with
  | read a r hk => exact (offTable_host (startIndex_read hk s)).follows rfl id
  | write a r hk hw ho =>
    by_cases hr : r = .cmd
    · subst hr
      exact follows_commandWrite hinv hk hw ho
    · obtain ⟨hphase, hdone⟩ := regWrite_keeps_phase_done hr a.data s
      exact (offTable_host (startIndex_write_other ho hr s)).follows hphase hdone
  | writeAnswer a =>
    split
    next hp => exact follows_writeResp hp a
    next hp => exact (offTable_writeAnswer hp a).follows rfl id
  | readAnswer a =>
    split
    next hp => exact follows_readResp hp a
    next hp => exact (offTable_readAnswer hp a).follows rfl id
  | tick =>
    split
    next hp => exact follows_waitTick hinv hp
    next hp => exact (offTable_tick hp).follows rfl id
  | internal =>
    split
    next hp => exact follows_checkStep hp
    next hp => exact (offTable_internal hp).follows rfl id
  | reset => exact follows_reset s

/-- Settles O33: taking the event from the environment changes nothing the table reads, and the event follows it. -/
theorem phaseMovesOnlyAlongTheTable : Obligations.PhaseMovesOnlyAlongTheTable := by
  intro s t hinv h
  obtain ⟨hphase, hcompletes, hnone⟩ : FollowsTable (takeEvent s) (nextEvent s.env) t :=
    fire_followsTable (hinv.setEnv _) h
  exact ⟨hphase, hcompletes, hnone⟩

end Sys2Proof.Machine
end

section
/-! The exceptions (60_exceptions.md R92 to R100): the interrupt line, a failed bus transaction, and a reply with a
failing group. -/

namespace Sys2Proof.Machine
open Sys2Proof.Claims

/-! ### Events that write a register -/

/-- A legal write to register `r` is the RegWrite of its word (R31). -/
theorem eq_wr_of_accesses {e : Event} {r : Reg} (h : accesses e .write r = true) :
    e = .host (.wr r (writtenWord e)) := by
  cases e with
  | host a =>
    obtain ⟨⟨hk, hw⟩, ho⟩ : (a.kind = .write ∧ a.width = 32) ∧ a.off = r.offset := by simpa [accesses] using h
    rw [writtenWord, HostAccess.wr, ← hk, ← hw, ← ho]
  | busWriteAnswer | busReadAnswer | tick | internal | reset => cases h

/-- A legal write to register `r` takes that register's write effect (R31). -/
theorem fire_of_accesses {e : Event} {r : Reg} (h : accesses e .write r = true) (s : State) :
    fire e s = .next (regWrite r (writtenWord e) s) := by
  rw [eq_wr_of_accesses h, fire_wr]
  rfl

/-- An event that starts a command is a CMD write while BUSY = 0 (R80). -/
theorem accepted_of_startIndex {s : State} {e : Event} {c : BitVec 4} (h : startIndex s e = some c) :
    accesses e .write .cmd = true ∧ s.status.busy = false ∧ cmdField (writtenWord e) = c := by
  rw [startIndex] at h
  split at h
  next hcond => exact ⟨hcond.1, hcond.2, Option.some.inj h⟩
  next => cases h

/-! ### The interrupt line -/

/-- A register write leaves CTRL.IE alone at every register but CTRL (R17). -/
theorem regWrite_ie {r : Reg} (hr : r ≠ .ctrl) (v : Word) (s : State) : (regWrite r v s).ie = s.ie := by
  cases r with
  | ctrl => exact absurd rfl hr
  | cmd =>
    rw [regWrite]
    cases hb : s.status.busy with
    | true => rw [commandWrite_busy hb]
    | false =>
      rcases cmd_cases (cmdField v) with ⟨d, hd⟩ | hd
      · rw [hd, commandWrite_legal hb]
      · rw [commandWrite_illegal hb hd]
  | _ => rfl

/-- The answer to the BusWrite leaves CTRL.IE alone (R84). -/
theorem writeResp_ie (a : WriteAnswer) (s : State) : (writeResp a s).ie = s.ie := by
  cases a with
  | fail => rw [writeResp_fail]
  | ok =>
    by_cases hn : s.snap.nreply = 0
    · rw [writeResp_ok_writeOnly hn]
    · rw [writeResp_ok_read hn]

/-- The answer to the BusRead leaves CTRL.IE alone (R86). -/
theorem readResp_ie (a : ReadAnswer) (s : State) : (readResp a s).ie = s.ie := by
  by_cases hgood : ∃ bs, a = .ok bs ∧ bs.length = rxLength s.snap
  · obtain ⟨bs, rfl, hlen⟩ := hgood
    rw [readResp_ok hlen]
  · rw [readResp_bad fun bs hbs hlen => hgood ⟨bs, hbs, hlen⟩]

/-- A tick in WAIT leaves CTRL.IE alone (R85). -/
theorem waitTick_ie (s : State) : (waitTick s).ie = s.ie := by
  by_cases hlast : s.snap.wait.toNat + 1 ≤ (s.cnt + 1#17).toNat
  · rw [waitTick_last hlast]
  · rw [waitTick_more (by omega)]

/-- CHECK leaves CTRL.IE alone (R87). -/
theorem checkStep_ie (s : State) : (checkStep s).ie = s.ie := by
  by_cases hmask : crcFailMask s.rx s.snap.nreply.val = 0#3
  · rw [checkStep_ok hmask]
  · rw [checkStep_fail hmask]

/-- CTRL.IE changes only at a reset or a write of CTRL (R17). -/
theorem fire_ie {s t : State} {e : Event} (h : fire e s = .next t) (hreset : e ≠ .reset)
    (hctrl : accesses e .write .ctrl ≠ true) : t.ie = s.ie := by
  have hf := fire_fires e s
  rw [h] at hf
  cases hf with
  | read => rfl
  | write a r hk hw ho =>
    have hr : r ≠ .ctrl := by
      rintro rfl
      exact hctrl (accesses_self hk hw ho)
    exact regWrite_ie hr a.data s
  | writeAnswer a =>
    split
    · exact writeResp_ie a s
    · rfl
  | readAnswer a =>
    split
    · exact readResp_ie a s
    · rfl
  | tick =>
    split
    · exact waitTick_ie s
    · rfl
  | internal =>
    split
    · exact checkStep_ie s
    · rfl
  | reset => exact absurd rfl hreset

/-- A reset completes no command (R109). -/
theorem outcomeOf_reset (s : State) : outcomeOf s .reset = none := by
  cases hp : s.phase <;> simp [outcomeOf, hp, startIndex, accesses]

/-- A write of CTRL completes no command. -/
theorem outcomeOf_ctrlWrite {e : Event} (h : accesses e .write .ctrl = true) (s : State) : outcomeOf s e = none := by
  rw [eq_wr_of_accesses h]
  exact (offTable_host (startIndex_write_other (r := .ctrl) rfl (by decide) s)).2

/-- An event that completes a command leaves CTRL.IE alone. -/
theorem fire_ie_of_outcome {s t : State} {e : Event} {k : ErrKind} (h : fire e s = .next t)
    (ho : outcomeOf s e = some k) : t.ie = s.ie := by
  refine fire_ie h ?_ fun hctrl => ?_
  · rintro rfl
    cases (outcomeOf_reset s).symm.trans ho
  · cases (outcomeOf_ctrlWrite hctrl s).symm.trans ho

/-- From every state of the invariant `irq` rises only at a completion or at a write of CTRL (R100). -/
theorem irq_rises {s t : State} {e : Event} (hinv : Inv s) (h : fire e s = .next t) (ht : irq t = true)
    (hs : irq s = false) : (∃ k, outcomeOf s e = some k) ∨ accesses e .write .ctrl = true := by
  obtain ⟨hie, hdone⟩ : t.ie = true ∧ t.status.done = true := Bool.and_eq_true_iff.mp ht
  refine or_iff_not_imp_right.mpr fun hctrl => ?_
  have hreset : e ≠ .reset := by
    rintro rfl
    cases h
    cases hie
  have hies : s.ie = true := (fire_ie h hreset hctrl).symm.trans hie
  cases ho : outcomeOf s e with
  | some k => exact ⟨k, rfl⟩
  | none =>
    have hdones : s.status.done = true := (fire_followsTable hinv h).noneElse ho hdone
    simp [irq, hies, hdones] at hs

/-- A reset, a W1C of DONE and the start of a legal command leave DONE = 0 (R20, R80, R99, R108). -/
theorem done_cleared {s t : State} {e : Event} (h : fire e s = .next t)
    (he : e = .reset ∨ (accesses e .write .status = true ∧ (writtenWord e).getLsbD 1 = true)
      ∨ ∃ c, startIndex s e = some c ∧ c.toNat < 10) : t.status.done = false := by
  rcases he with rfl | ⟨hacc, hbit⟩ | ⟨c, hstart, hlt⟩
  · cases h
    rfl
  · cases (fire_of_accesses hacc s).symm.trans h
    simp [regWrite, acknowledge_eq, hbit]
  · obtain ⟨hacc, hb, hc⟩ := accepted_of_startIndex hstart
    cases (fire_of_accesses hacc s).symm.trans h
    rcases cmd_cases c with ⟨d, rfl⟩ | hge
    · rw [regWrite, hc, commandWrite_legal hb]
    · omega

/-- Settles O38: `irq` rises where IE or DONE does, a completion sets DONE and leaves IE, and the three clearing events
leave DONE = 0. -/
theorem interruptFollowsDone : Obligations.InterruptFollowsDone := by
  refine ⟨fun _ => rfl, fun s t hinv h => irq_rises (s := takeEvent s) (hinv.setEnv _) h, fun s t hinv h ⟨k, ho⟩ => ?_,
    fun s t h he => ?_⟩
  · have hie : t.ie = s.ie := fire_ie_of_outcome (s := takeEvent s) h ho
    obtain ⟨hdone, -, -⟩ := (fire_followsTable (s := takeEvent s) (hinv.setEnv _) h).completes k ho
    rw [irq, hie, hdone, Bool.and_true]
  · rw [irq, done_cleared (s := takeEvent s) h he, Bool.and_false]

/-! ### Runs of a whole command -/

/-- Every instruction of a CMD index is encoded as a write of that index to CMD (R47). -/
theorem encode_commandOf (c : BitVec 4) : encode (commandOf c) = .wr .cmd (c.setWidth 32) := by
  revert c
  decide

/-- The instruction of a CMD index is the CMD write of that index (R47). -/
theorem fire_commandOf (c : BitVec 4) (s : State) :
    fire (.host (encode (commandOf c))) s = .next (commandWrite c s) := by
  have hc : cmdField (c.setWidth 32) = c := by
    revert c
    decide
  rw [encode_commandOf, fire_wr, regWrite, hc]

/-- In WRITE the answer to the BusWrite takes the effect of R84. -/
theorem fire_writeAnswer {s : State} (hp : s.phase = .write) (a : WriteAnswer) :
    fire (.busWriteAnswer a) s = .next (writeResp a s) := by
  rw [fire, if_pos hp]

/-- In WAIT a tick takes the effect of R85. -/
theorem fire_tick {s : State} (hp : s.phase = .wait) : fire .tick s = .next (waitTick s) := by
  rw [fire, if_pos hp]

/-- In READ the answer to the BusRead takes the effect of R86. -/
theorem fire_readAnswer {s : State} (hp : s.phase = .read) (a : ReadAnswer) :
    fire (.busReadAnswer a) s = .next (readResp a s) := by
  rw [fire, if_pos hp]

/-- In CHECK the engine's own step is that of R87. -/
theorem fire_internal {s : State} (hp : s.phase = .check) : fire .internal s = .next (checkStep s) := by
  rw [fire, if_pos hp]

/-- A run whose first event leads to `u` goes on from `u`. -/
theorem runsTo_cons_of_fire {s t u : State} {e : Event} {es : List Event} (h : fire e s = .next u) :
    RunsTo s (e :: es) t ↔ RunsTo u es t := by
  simp [runsTo_cons, h]

/-- The read commands are the commands of their index, with no payload and the reply words of R66. -/
theorem readCommands_spec {p : Instr × Fin 10 × Fin 4} (hp : p ∈ readCommands) :
    p.1 = commandOf (BitVec.ofNat 4 p.2.1.val) ∧ descriptor p.2.1 = ⟨0, p.2.2⟩ ∧ p.2.2 ≠ 0 := by
  revert p
  decide

/-- A read command's snapshot holds the lengths of R66. -/
theorem takeSnapshot_of_descriptor {c : Fin 10} {npay : Fin 3} {n : Fin 4} (h : descriptor c = ⟨npay, n⟩) (s : State) :
    takeSnapshot c s = snapshotOf s c n npay := by
  simp only [takeSnapshot, snapshotOf, h]

/-- In WAIT every tick below the bound is counted and nothing else happens (R85). -/
theorem runsTo_waitTicks {s : State} (hp : s.phase = .wait) (hc : s.cnt = 0#17) (n : Nat)
    (hn : n ≤ s.snap.wait.toNat) : RunsTo s (List.replicate n .tick) { s with cnt := BitVec.ofNat 17 n } := by
  induction n with
  | zero => exact (runsTo_nil _ _).mpr (by rw [← hc])
  | succ n ih =>
    have hwait := s.snap.wait.isLt
    rw [List.replicate_succ', runsTo_append]
    refine ⟨_, ih (by omega), ?_⟩
    rw [runsTo_cons_of_fire (fire_tick (s := { s with cnt := BitVec.ofNat 17 n }) hp), waitTick_more, runsTo_nil,
      ← BitVec.ofNat_add]
    simp only [← BitVec.ofNat_add, BitVec.toNat_ofNat]
    omega

/-- The wait of `n` lasts `n + 1` ticks, and the last one issues the BusRead (R85). -/
theorem runsTo_waitEnd {s : State} (hp : s.phase = .wait) (hc : s.cnt = 0#17) :
    RunsTo s (List.replicate (s.snap.wait.toNat + 1) .tick)
      { s with
        cnt := BitVec.ofNat 17 (s.snap.wait.toNat + 1)
        phase := .read
        bus := some (.read s.snap.taddr (rxLength s.snap)) } := by
  have hwait := s.snap.wait.isLt
  rw [List.replicate_succ', runsTo_append]
  refine ⟨_, runsTo_waitTicks hp hc _ le_rfl, ?_⟩
  rw [runsTo_cons_of_fire (fire_tick (s := { s with cnt := BitVec.ofNat 17 s.snap.wait.toNat }) hp), waitTick_last,
    runsTo_nil, ← BitVec.ofNat_add]
  simp only [← BitVec.ofNat_add, BitVec.toNat_ofNat]
  omega

/-- The state of a read command in READ, its BusRead outstanding: what `finished` says of the fields the completion
leaves alone, the record still clear. -/
def awaitingReply (s : State) (c : Fin 10) (n : Fin 4) : State :=
  { finished s c n ⟨true, false, .none, false, 0, false, 0#3, s.status.ovr⟩ [] with
    phase := .read
    bus := some (.read s.taddr (3 * n.val)) }

/-- A read command whose write is answered OK waits and then issues its BusRead (41_commands.md section 3). -/
theorem runsTo_awaitingReply {s : State} (hb : s.status.busy = false) {p : Instr × Fin 10 × Fin 4}
    (hp : p ∈ readCommands) :
    RunsTo s (upToRead p.1 (s.waitMs.get p.2.1)) (awaitingReply s p.2.1 p.2.2) := by
  obtain ⟨hinstr, hdesc, hn⟩ := readCommands_spec hp
  rw [upToRead, hinstr, List.cons_append, List.singleton_append, runsTo_cons_of_fire (fire_commandOf _ s),
    commandWrite_legal hb, takeSnapshot_of_descriptor hdesc, runsTo_cons_of_fire (fire_writeAnswer rfl _),
    writeResp_ok_read hn]
  exact runsTo_waitEnd rfl rfl

/-- From its BusRead on, a read command runs as from `awaitingReply`. -/
theorem runsTo_upToRead_append {s t : State} (hb : s.status.busy = false) {p : Instr × Fin 10 × Fin 4}
    (hp : p ∈ readCommands) {es : List Event} (h : RunsTo (awaitingReply s p.2.1 p.2.2) es t) :
    RunsTo s (upToRead p.1 (s.waitMs.get p.2.1) ++ es) t :=
  (runsTo_append ..).mpr ⟨_, runsTo_awaitingReply hb hp, h⟩

/-! ### A failed transaction and a corrupted reply -/

/-- Settles O29: the write's FAIL completes the start at once, and the read's in `awaitingReply`. -/
theorem busFailureCompletesWithIoError : Obligations.BusFailureCompletesWithIoError := by
  intro s hb
  refine ⟨fun c => ?_, fun p hp a hbad => runsTo_upToRead_append hb hp ?_⟩
  · rw [runsTo_cons_of_fire (fire_commandOf _ s), commandWrite_legal hb, runsTo_cons_of_fire (fire_writeAnswer rfl _),
      writeResp_fail, runsTo_nil]
    rfl
  · rw [runsTo_cons_of_fire (fire_readAnswer rfl _), readResp_bad (s := awaitingReply s p.2.1 p.2.2) hbad, runsTo_nil]
    rfl

/-- Settles O28: the reply goes to CHECK, whose mask is that of the failing groups and so is not 0. -/
theorem anyCorruptedGroupDiscardsTheReply : Obligations.AnyCorruptedGroupDiscardsTheReply := by
  intro s hb p hp bytes hlen ⟨k, hk, hbad⟩
  have hmask : crcFailMask bytes p.2.2.val ≠ 0#3 := fun h =>
    hbad ((crcFailMask_eq_zero_iff_groupGood (Nat.lt_succ_iff.mp p.2.2.isLt)).mp h k hk)
  refine ⟨crcFailMask bytes p.2.2.val, fun j hj => ?_, runsTo_upToRead_append hb hp ?_⟩
  · rw [crcFailMask_getLsbD _ _ _ hj, groupFails_iff]
  · rw [runsTo_cons_of_fire (fire_readAnswer rfl _), readResp_ok (s := awaitingReply s p.2.1 p.2.2) hlen,
      runsTo_cons_of_fire (fire_internal rfl), checkStep_fail, runsTo_nil]
    · rfl
    · exact hmask

end Sys2Proof.Machine
end

section
/-! Reset and hazards (70_reset_and_hazards.md): the values a reset leaves, and a transaction that is never answered. -/

namespace Sys2Proof.Machine
open Sys2Proof.Claims

/-! ### Reset -/

/-- The CRC of the word 0, which CRC_CHECK.VALUE shows after reset (R108). -/
theorem crcWord_zero : crcWord 0#16 = 0x81#8 := by
  simp [crcWord, msb, lsb, crc8, crcByte, crcBits, crcBit]

/-- The settle times after reset are those of R26. -/
theorem resetWaitMs_get (c : Fin 10) :
    (resetWaitMs.get c).toNat = [10, 12, 120, 10, 10, 520, 10, 10, 10, 10].getD c.val 0 := by
  revert c
  decide

/-- STATUS reads 0 after reset (R108). -/
theorem statusWord_reset : statusWord Status.reset .idle = 0x00000000#32 := by decide

/-- The reset values are listed ones, whatever the environment holds: VALUE is `crc8([0, 0])`, and it differs from
EXPECT (R25, R108). -/
theorem listedResetValues_setEnv (env : Env) : ListedResetValues (State.reset.setEnv env) := by
  have hcheck : regRead .crcCheck (State.reset.setEnv env) = 0x00008100#32 := by
    simp [regRead, crcCheckWord, State.reset, crcWord_zero]
  exact ⟨rfl, rfl, statusWord_reset, rfl, rfl, rfl, rfl, rfl, rfl, rfl, rfl, hcheck, resetWaitMs_get, rfl,
    rfl, rfl, rfl, rfl⟩

/-- Settles O44: the reset state and every reset step's state are the reset fields under some environment, and DESC
reads no field. -/
theorem resetLeavesTheListedValues : Obligations.ResetLeavesTheListedValues :=
  ⟨listedResetValues_setEnv Env.reset, fun s => ⟨resetStep s, rfl, listedResetValues_setEnv s.env, fun _ => rfl⟩⟩

/-! ### A transaction that is never answered -/

/-- The engine of `t` is in the same place of the same command as that of `s`, with the same transaction, and has not
recorded a completion since. -/
structure SameTransaction (s t : State) : Prop where
  busy : t.status.busy = s.status.busy
  phase : t.phase = s.phase
  bus : t.bus = s.bus
  cmd : t.cmd = s.cmd
  snap : t.snap = s.snap
  done : s.status.done = false → t.status.done = false

theorem SameTransaction.refl (s : State) : SameTransaction s s := ⟨rfl, rfl, rfl, rfl, rfl, id⟩

theorem SameTransaction.trans {s t u : State} (h : SameTransaction s t) (h' : SameTransaction t u) :
    SameTransaction s u :=
  ⟨h'.busy.trans h.busy, h'.phase.trans h.phase, h'.bus.trans h.bus, h'.cmd.trans h.cmd, h'.snap.trans h.snap,
    h'.done ∘ h.done⟩

/-- No register write moves a running command: one of CMD is an overrun, and STATUS can only lose DONE (R19, R83). -/
theorem sameTransaction_regWrite {s : State} (hb : s.status.busy = true) (r : Reg) (v : Word) :
    SameTransaction s (regWrite r v s) := by
  cases r with
  | cmd =>
    rw [regWrite, commandWrite_busy hb]
    exact ⟨rfl, rfl, rfl, rfl, rfl, id⟩
  | status =>
    rw [regWrite, acknowledge_eq]
    exact ⟨rfl, rfl, rfl, rfl, rfl, fun hdone => by rw [hdone, Bool.false_and]⟩
  | _ => exact ⟨rfl, rfl, rfl, rfl, rfl, id⟩

/-- In WRITE or READ only an answer or a reset moves a running command (R79, R119). -/
theorem fire_sameTransaction {s : State} (hb : s.status.busy = true) (hp : s.phase = .write ∨ s.phase = .read)
    {e : Event} (hlegal : legalEvent e) (hans : ¬isAnswer e) (hreset : e ≠ .reset) :
    ∃ t, fire e s = .next t ∧ SameTransaction s t := by
  have hwait : s.phase ≠ .wait := by rcases hp with hp | hp <;> simp [hp]
  have hcheck : s.phase ≠ .check := by rcases hp with hp | hp <;> simp [hp]
  have hf := fire_fires e s
  generalize fire e s = o at hf ⊢
  cases hf with
  | badAccess a hbad => exact absurd (hlegal a rfl) (by simp [hbad])
  | read => exact ⟨_, rfl, rfl, rfl, rfl, rfl, rfl, id⟩
  | write a r => exact ⟨_, rfl, sameTransaction_regWrite hb r a.data⟩
  | writeAnswer a => exact absurd (.inl ⟨a, rfl⟩) hans
  | readAnswer a => exact absurd (.inr ⟨a, rfl⟩) hans
  | tick => exact ⟨s, by rw [if_neg hwait], .refl s⟩
  | internal => exact ⟨s, by rw [if_neg hcheck], .refl s⟩
  | reset => exact absurd rfl hreset

/-- So it stays over every run without an answer and a reset (R119). -/
theorem runsTo_sameTransaction {es : List Event} (hes : ∀ e ∈ es, legalEvent e ∧ ¬isAnswer e ∧ e ≠ .reset)
    {s : State} (hb : s.status.busy = true) (hp : s.phase = .write ∨ s.phase = .read) :
    ∃ t, RunsTo s es t ∧ SameTransaction s t := by
  induction es generalizing s with
  | nil => exact ⟨s, (runsTo_nil s s).mpr rfl, .refl s⟩
  | cons e es ih =>
    obtain ⟨⟨hlegal, hans, hreset⟩, hrest⟩ := List.forall_mem_cons.mp hes
    obtain ⟨u, hu, hsu⟩ := fire_sameTransaction hb hp hlegal hans hreset
    obtain ⟨t, ht, hut⟩ := ih hrest (hsu.busy.trans hb) (hsu.phase ▸ hp)
    exact ⟨t, (runsTo_cons_of_fire hu).mpr ht, hsu.trans hut⟩

/-- Settles O39: by induction over the events, each of which leaves the command where it is. -/
theorem unansweredTransactionHangs : Obligations.UnansweredTransactionHangs := by
  intro s es hb hp hes
  obtain ⟨t, ht, hst⟩ := runsTo_sameTransaction hes hb hp
  exact ⟨t, ht, hst.busy.trans hb, hst.phase, hst.bus, hst.cmd, hst.snap, hst.done⟩

end Sys2Proof.Machine
end

section
/-! The invariant of every step (10_state.md R19, R28; 60_exceptions.md R98): reset satisfies it, and each operation
keeps it. -/

namespace Sys2Proof.Machine
open Sys2Proof.Claims

/-! ### States that agree on the engine -/

/-- The invariant speaks of the engine's side of the state alone. -/
theorem Inv.of_sameEngine {s t : State} (hinv : Inv s) (h : SameEngine s t) : Inv t := by
  cases s
  cases t
  obtain ⟨rfl, rfl, rfl, rfl, rfl, rfl, rfl, rfl, rfl, rfl⟩ := h
  obtain ⟨⟨a1, a2, a3, a4, a5, a6⟩, b, c, ⟨d1, d2, d3, d4⟩, ⟨e1, e2, e3, e4, e5, e6, e7, e8⟩⟩ := hinv
  exact ⟨⟨a1, a2, a3, a4, a5, a6⟩, b, c, ⟨d1, d2, d3, d4⟩, ⟨e1, e2, e3, e4, e5, e6, e7, e8⟩⟩

/-- OVR, and the loss of DONE, play no part in the invariant (R19, R83, R99). -/
theorem Inv.of_flags {s : State} (hinv : Inv s) {done ovr : Bool} (hdone : done = true → s.status.done = true) :
    Inv { s with status := { s.status with done := done, ovr := ovr } } := by
  obtain ⟨⟨a1, a2, a3, a4, a5, a6⟩, b, c, ⟨d1, d2, d3, d4⟩, ⟨e1, e2, e3, e4, e5, e6, e7, e8⟩⟩ := hinv
  have hnotDone : s.status.busy = true → done = false := fun hb => by
    have hs := a2 hb
    cases done with
    | false => rfl
    | true => exact (hdone rfl).symm.trans hs
  exact ⟨⟨a1, hnotDone, a3, a4, a5, a6⟩, b, c, ⟨d1, d2, d3, d4⟩, ⟨e1, e2, e3, e4, e5 ∘ hdone, e6, e7, e8⟩⟩

/-! ### Idle states with a completed record -/

/-- A result register is 0 where all three are. -/
theorem result_eq_zero {s : State} (h0 : s.result0 = 0#16) (h1 : s.result1 = 0#16) (h2 : s.result2 = 0#16) (k : Nat) :
    s.result k = 0#16 := by
  match k with
  | 0 => exact h0
  | 1 => exact h1
  | 2 => exact h2
  | _ + 3 => rfl

/-- In IDLE, with nothing outstanding, the invariant is that of the completion record. -/
theorem Inv.of_idle {s : State} (hp : s.phase = .idle) (hbus : s.bus = none) (hrx : s.rx.length ≤ 9)
    (hstatus : StatusInv s) (hrecord : RecordInv s) : Inv s where
  status := hstatus
  bus := by rw [BusInv, hp, hbus]
  snapshot h := absurd hp h
  reply := ⟨fun h => by simp [hp] at h, fun h => by simp [hp] at h, fun h => by simp [hp] at h, hrx⟩
  record := hrecord

/-- A record with no result, of an error of the kind CMD calls for, satisfies the invariant in IDLE (R88, R89, R92). -/
theorem Inv.of_error {s : State} {done ioRd ovr : Bool} {err : ErrKind} {m : BitVec 3} (hp : s.phase = .idle)
    (hbus : s.bus = none) (hrx : s.rx.length ≤ 9) (hstatus : s.status = ⟨false, done, err, false, 0, ioRd, m, ovr⟩)
    (hresult : ∀ k, s.result k = 0#16) (herr : err ≠ .none) (hio : ioRd = true → err = .io)
    (hmask : m ≠ 0#3 ↔ err = .protocol) (hcmd : err = .illegal ↔ 10 ≤ s.cmd.toNat)
    (hbits : ∀ c : Fin 10, s.cmd = BitVec.ofNat 4 c.val → ∀ k, (descriptor c).nreply.val ≤ k → m.getLsbD k = false) :
    Inv s := by
  refine .of_idle hp hbus hrx ?_ ?_
  · exact ⟨by simp [hstatus, hp], by simp [hstatus], by simp [hstatus], by simp [hstatus],
      by simpa [hstatus] using hmask.mp, by simpa [hstatus] using hio⟩
  · exact ⟨by simp [hstatus], by simp [hstatus], fun k _ => hresult k, by simpa [hstatus] using hcmd,
      by simp [hstatus, herr], by simp [hstatus], by simpa [hstatus] using hmask.mpr,
      by simpa only [hstatus] using hbits⟩

/-- The reset state's invariant: IDLE, with a record of no completion (R108). -/
theorem inv_reset : Inv State.reset := by
  refine .of_idle rfl rfl (by decide) ⟨by decide, nofun, nofun, fun h => absurd rfl h, fun h => absurd rfl h, nofun⟩ ?_
  exact ⟨nofun, fun _ => rfl, fun k _ => result_eq_zero rfl rfl rfl k, by decide, nofun, nofun, nofun,
    fun _ _ _ _ => BitVec.getLsbD_zero⟩

/-! ### Starting a command -/

/-- An accepted start of a legal command leaves a clear record, its own snapshot and its BusWrite (R80, R81). -/
theorem inv_commandWrite_legal {s : State} (hb : s.status.busy = false) (c : Fin 10) :
    Inv (commandWrite (BitVec.ofNat 4 c.val) s) := by
  rw [commandWrite_legal hb]
  have hlt := legalIndex_lt c
  refine ⟨⟨⟨nofun, fun _ => rfl⟩, fun _ => rfl, nofun, fun h => absurd rfl h, fun h => absurd rfl h, nofun⟩,
    rfl, fun _ => ⟨c, rfl, rfl, rfl, rfl, rfl, rfl⟩, ⟨nofun, by simp, nofun, Nat.zero_le 9⟩, ?_⟩
  exact ⟨fun _ => ⟨rfl, rfl, rfl, rfl⟩, fun _ => rfl, fun k _ => result_eq_zero rfl rfl rfl k,
    ⟨nofun, fun h => absurd hlt (Nat.not_lt.mpr h)⟩, nofun, nofun, nofun, fun _ _ _ _ => BitVec.getLsbD_zero⟩

/-- An illegal index leaves the record of ILLEGAL_CMD (R82). -/
theorem Inv.commandWrite_illegal {s : State} (hinv : Inv s) (hb : s.status.busy = false) {c : BitVec 4}
    (hc : 10 ≤ c.toNat) : Inv (commandWrite c s) := by
  obtain ⟨-, hfree⟩ := hinv.idle hb
  rw [Machine.commandWrite_illegal hb hc]
  exact .of_error rfl hfree hinv.reply.rx_length rfl (result_eq_zero rfl rfl rfl) nofun nofun
    ⟨fun h => absurd rfl h, nofun⟩ ⟨fun _ => hc, fun _ => rfl⟩ fun _ _ _ _ => BitVec.getLsbD_zero

/-- A CMD write keeps the invariant. -/
theorem Inv.commandWrite {s : State} (hinv : Inv s) (c : BitVec 4) : Inv (commandWrite c s) := by
  cases hb : s.status.busy with
  | true =>
    rw [commandWrite_busy hb]
    exact hinv.of_flags id
  | false =>
    rcases cmd_cases c with ⟨d, rfl⟩ | hc
    · exact inv_commandWrite_legal hb d
    · exact hinv.commandWrite_illegal hb hc

/-- A register write keeps the invariant. -/
theorem Inv.regWrite {s : State} (hinv : Inv s) (r : Reg) (v : Word) : Inv (regWrite r v s) := by
  by_cases hcmd : r = .cmd
  · subst hcmd
    exact hinv.commandWrite _
  by_cases hstatus : r = .status
  · subst hstatus
    exact hinv.of_flags fun h => (Bool.and_eq_true_iff.mp h).1
  exact hinv.of_sameEngine (sameEngine_regWrite hcmd hstatus v s)

/-! ### Completions of a running command -/

/-- The command in progress is a legal one, and its reply length is that of its index (R66, R81). -/
theorem Inv.running_command {s : State} (hinv : Inv s) (hp : s.phase ≠ .idle) :
    ∃ c : Fin 10, s.cmd = BitVec.ofNat 4 c.val ∧ s.snap.nreply = (descriptor c).nreply := by
  obtain ⟨c, hcmd, -, -, -, hnreply, -⟩ := hinv.snapshot hp
  exact ⟨c, hcmd, hnreply⟩

/-- A failed completion of a running command, with the mask `m` of failing groups, satisfies the invariant (R89, R93,
R94). -/
theorem Inv.completed_error {s : State} (hinv : Inv s) (hp : s.phase ≠ .idle) {err : ErrKind} {ioRd : Bool}
    {m : BitVec 3} (herr : err ≠ .none) (hill : err ≠ .illegal) (hio : ioRd = true → err = .io)
    (hmask : m ≠ 0#3 ↔ err = .protocol) (hbits : ∀ k, s.snap.nreply.val ≤ k → m.getLsbD k = false) :
    Inv { s with
      status := ⟨false, true, err, s.status.resValid, s.status.resCount, ioRd, m, s.status.ovr⟩
      phase := .idle
      bus := none } := by
  obtain ⟨hstatus, hresult⟩ := hinv.running hp
  obtain ⟨c, hcmd, hnreply⟩ := hinv.running_command hp
  have hlt := legalIndex_lt c
  rw [hstatus]
  refine .of_error rfl rfl hinv.reply.rx_length rfl hresult herr hio hmask ?_ fun d hd k hk => ?_
  · simp [hill, hcmd]
    omega
  · obtain rfl : c = d := cmdIndex_inj (hcmd.symm.trans hd)
    exact hbits k (hnreply ▸ hk)

/-- A successful completion of a running command, with words for its reply length alone, satisfies the invariant (R88,
R89). -/
theorem Inv.completed_ok {s : State} (hinv : Inv s) (hp : s.phase ≠ .idle) {r0 r1 r2 : Half}
    (h0 : s.snap.nreply.val ≤ 0 → r0 = 0#16) (h1 : s.snap.nreply.val ≤ 1 → r1 = 0#16)
    (h2 : s.snap.nreply.val ≤ 2 → r2 = 0#16) :
    Inv { s with
      status := ⟨false, true, .none, true, s.snap.nreply, false, 0#3, s.status.ovr⟩
      result0 := r0
      result1 := r1
      result2 := r2
      phase := .idle
      bus := none } := by
  obtain ⟨c, hcmd, hnreply⟩ := hinv.running_command hp
  have hlt := legalIndex_lt c
  have hresult : ∀ k, s.snap.nreply.val ≤ k →
      State.result { s with result0 := r0, result1 := r1, result2 := r2 } k = 0#16
    | 0, hk => h0 hk
    | 1, hk => h1 hk
    | 2, hk => h2 hk
    | _ + 3, _ => rfl
  refine .of_idle rfl rfl hinv.reply.rx_length
    ⟨⟨nofun, fun h => absurd rfl h⟩, nofun, fun _ => rfl, fun h => absurd rfl h, fun h => absurd rfl h, nofun⟩ ?_
  refine ⟨nofun, nofun, hresult, ⟨nofun, fun h => ?_⟩, fun _ _ => rfl, fun _ d hd => ?_, nofun,
    fun _ _ _ _ => BitVec.getLsbD_zero⟩
  · exact absurd (hcmd ▸ h) (Nat.not_le.mpr hlt)
  · rw [hnreply, cmdIndex_inj (hcmd.symm.trans hd)]

/-! ### The engine's own events -/

/-- A running command that goes on to another phase keeps the invariant, if the transaction, the counter and the reply
are that phase's (R79). -/
theorem Inv.moved {s : State} (hinv : Inv s) (hp : s.phase ≠ .idle) {p : Phase} (hp' : p ≠ .idle) {n : BitVec 17}
    {rx : List Byte} {b : Option BusTxn} (hbus : BusInv { s with phase := p, cnt := n, rx := rx, bus := b })
    (hreply : ReplyInv { s with phase := p, cnt := n, rx := rx, bus := b }) :
    Inv { s with phase := p, cnt := n, rx := rx, bus := b } := by
  have hb := hinv.status.busy_iff_phase.mpr hp
  obtain ⟨-, a2, a3, a4, a5, a6⟩ := hinv.status
  obtain ⟨e1, e2, e3, e4, e5, e6, e7, e8⟩ := hinv.record
  exact ⟨⟨⟨fun _ => hp', fun _ => hb⟩, a2, a3, a4, a5, a6⟩, hbus, fun _ => hinv.snapshot hp, hreply,
    ⟨e1, e2, e3, e4, e5, e6, e7, e8⟩⟩

/-- The answer to the BusWrite keeps the invariant (R84). -/
theorem Inv.writeResp {s : State} (hinv : Inv s) (hp : s.phase = .write) (a : WriteAnswer) : Inv (writeResp a s) := by
  have hrun : s.phase ≠ .idle := by simp [hp]
  obtain ⟨-, hresult⟩ := hinv.running hrun
  cases a with
  | fail =>
    rw [writeResp_fail]
    exact hinv.completed_error hrun nofun nofun nofun ⟨fun h => absurd rfl h, nofun⟩ fun _ _ => BitVec.getLsbD_zero
  | ok =>
    by_cases hn : s.snap.nreply = 0
    · rw [writeResp_ok_writeOnly hn, ← hn]
      exact hinv.completed_ok hrun (fun _ => hresult 0) (fun _ => hresult 1) (fun _ => hresult 2)
    · rw [writeResp_ok_read hn]
      refine hinv.moved hrun ?_ rfl ?_
      · nofun
      · exact ⟨fun _ => Nat.zero_le _, fun _ => hn, nofun, hinv.reply.rx_length⟩

/-- A tick in WAIT keeps the invariant: the counter stays at or below the wait until READ (R85). -/
theorem Inv.waitTick {s : State} (hinv : Inv s) (hp : s.phase = .wait) : Inv (waitTick s) := by
  have hrun : s.phase ≠ .idle := by simp [hp]
  have hn := hinv.reply.reply_expected (.inl hp)
  have hrx := hinv.reply.rx_length
  by_cases hlast : s.snap.wait.toNat + 1 ≤ (s.cnt + 1#17).toNat
  · rw [waitTick_last hlast]
    refine hinv.moved hrun ?_ rfl ?_
    · nofun
    · exact ⟨nofun, fun _ => hn, nofun, hrx⟩
  · rw [waitTick_more (Nat.not_le.mp hlast)]
    refine hinv.moved hrun hrun hinv.bus ?_
    exact ⟨fun _ => Nat.le_of_lt_succ (Nat.not_le.mp hlast), fun _ => hn, fun h => (nomatch hp.symm.trans h), hrx⟩

/-- The answer to the BusRead keeps the invariant: only a reply of the right length goes to CHECK (R40, R86). -/
theorem Inv.readResp {s : State} (hinv : Inv s) (hp : s.phase = .read) (a : ReadAnswer) : Inv (readResp a s) := by
  have hrun : s.phase ≠ .idle := by simp [hp]
  by_cases hgood : ∃ bs, a = .ok bs ∧ bs.length = rxLength s.snap
  · obtain ⟨bs, rfl, hlen⟩ := hgood
    have hshort : bs.length ≤ 9 := by
      rw [hlen, rxLength]
      omega
    rw [readResp_ok hlen]
    refine hinv.moved hrun ?_ rfl ?_
    · nofun
    · exact ⟨nofun, fun _ => hinv.reply.reply_expected (.inr (.inl hp)), fun _ => hlen, hshort⟩
  · rw [readResp_bad fun bs hbs hlen => hgood ⟨bs, hbs, hlen⟩]
    exact hinv.completed_error hrun nofun nofun (fun _ => rfl) ⟨fun h => absurd rfl h, nofun⟩
      fun _ _ => BitVec.getLsbD_zero

/-- No group beyond the reply's length is in the mask of failing groups (R87). -/
theorem crcFailMask_getLsbD_of_ge {r : List Byte} {n k : Nat} (hk : n ≤ k) : (crcFailMask r n).getLsbD k = false := by
  by_cases h3 : k < 3
  · rw [crcFailMask_getLsbD r n k h3, groupFails, decide_eq_false (Nat.not_lt.mpr hk), Bool.false_and]
  · exact BitVec.getLsbD_of_ge _ _ (Nat.not_lt.mp h3)

/-- A word beyond the reply's length leaves its register alone (R88). -/
theorem replyWords_getD_of_ge {r : List Byte} {n k : Nat} (hk : n ≤ k) (d : Half) : (replyWords r n).getD k d = d := by
  rw [replyWords_getD, if_neg (Nat.not_lt.mpr hk)]

/-- CHECK keeps the invariant (R87). -/
theorem Inv.checkStep {s : State} (hinv : Inv s) (hp : s.phase = .check) : Inv (checkStep s) := by
  have hrun : s.phase ≠ .idle := by simp [hp]
  have hfree : s.bus = none := hinv.bus_none (by simp [hp]) (by simp [hp])
  obtain ⟨-, hresult⟩ := hinv.running hrun
  by_cases hmask : crcFailMask s.rx s.snap.nreply.val = 0#3
  · rw [checkStep_ok hmask, hfree]
    exact hinv.completed_ok hrun (fun h => (replyWords_getD_of_ge h _).trans (hresult 0))
      (fun h => (replyWords_getD_of_ge h _).trans (hresult 1)) (fun h => (replyWords_getD_of_ge h _).trans (hresult 2))
  · rw [checkStep_fail hmask, hfree]
    exact hinv.completed_error hrun nofun nofun nofun ⟨fun _ => rfl, fun _ => hmask⟩
      fun _ hk => crcFailMask_getLsbD_of_ge hk

/-! ### Every step -/

/-- Firing an event keeps the invariant. -/
theorem Inv.fire {s t : State} {e : Event} (hinv : Inv s) (h : fire e s = .next t) : Inv t := by
  have hf := fire_fires e s
  rw [h] at hf
  cases hf with
  | read => exact hinv.setEnv _
  | write a r => exact hinv.regWrite r a.data
  | writeAnswer a =>
    split
    next hp => exact hinv.writeResp hp a
    next => exact hinv
  | readAnswer a =>
    split
    next hp => exact hinv.readResp hp a
    next => exact hinv
  | tick =>
    split
    next hp => exact hinv.waitTick hp
    next => exact hinv
  | internal =>
    split
    next hp => exact hinv.checkStep hp
    next => exact hinv
  | reset => exact inv_reset.setEnv _

/-- Settles O31: the reset state is IDLE with a record of no completion. -/
theorem invariantHoldsAtReset : Obligations.InvariantHoldsAtReset := inv_reset

/-- Settles O32: taking the event from the environment keeps the invariant, and so does firing it. -/
theorem everyStepKeepsTheInvariant : Obligations.EveryStepKeepsTheInvariant :=
  fun s _ hinv h => Inv.fire (s := takeEvent s) (hinv.setEnv _) h

end Sys2Proof.Machine
end

section
/-! Encoding and decoding (30_encoding.md R47 to R49, R56; 40_crc.md R65): the bits a write keeps, the number of an
access, and the step that runs a decoded instruction. -/

namespace Sys2Proof.Machine
open Sys2Proof.Claims

/-! ### The bits an encoding keeps -/

/-- The low `n` bits of a word are its low field, zero-extended. -/
theorem and_lowBits_eq_setWidth (v : Word) (n : Nat) :
    v &&& (BitVec.allOnes n).setWidth 32 = (v.extractLsb' 0 n).setWidth 32 := by
  apply BitVec.eq_of_getLsbD_eq
  intro i hi
  by_cases hn : i < n <;> simp [hi, hn]

/-- A command's encoding keeps the low four bits of the written word (R47). -/
theorem encode_commandOf_cmdField (v : Word) : encode (commandOf (cmdField v)) = .wr .cmd (v &&& 0xF#32) := by
  rw [encode_commandOf]
  exact congrArg _ (and_lowBits_eq_setWidth v 4).symm

/-- Every command's operand is the index alone (R47). -/
theorem operandBits_commandOf (c : BitVec 4) : operandBits (commandOf c) = 0xF#32 := by
  revert c
  decide

/-- A legal access that decodes to `i` is the encoding of `i` but for the bits the registers discard. -/
theorem encode_decodeReg {r : Reg} {k : AccessKind} {v : Word} {i : Instr} (h : decodeReg r k v = .ok i) :
    encode i = ⟨k, 32, r.offset, v &&& operandBits i⟩ := by
  cases k with
  | write =>
    cases r <;> simp only [decodeReg, Except.ok.injEq, reduceCtorEq] at h <;> subst h
    case cmd => rw [encode_commandOf_cmdField, operandBits_commandOf, HostAccess.wr]
    case crcData => exact congrArg (HostAccess.wr .crcData) (and_lowBits_eq_setWidth v 16).symm
    case crcCheck => exact congrArg (HostAccess.wr .crcCheck) (and_lowBits_eq_setWidth v 8).symm
  | read =>
    cases r <;> simp only [decodeReg, Except.ok.injEq, reduceCtorEq] at h <;> subst h
    case crcData | crcCheck => exact congrArg (HostAccess.mk .read 32 _) BitVec.and_zero.symm

/-- A zero-extended field is read back as the low field of the word. -/
theorem lowField_setWidth {n : Nat} (x : BitVec n) (hn : n ≤ 32) : (x.setWidth 32).extractLsb' 0 n = x :=
  extractLsb'_eq_of_getLsbD fun i hi => by
    have hi' : i < 32 := by omega
    simp [hi']

/-- Decoding an encoded instruction gives it back. -/
theorem decode_encode (i : Instr) : decode (encode i) = .ok i := by
  cases i with
  | crcUnit op =>
    cases op with
    | writeData w => rw [encode, decode_wr, decodeReg, halfField, lowField_setWidth w (by decide)]
    | writeCheck e => rw [encode, decode_wr, decodeReg, expectField, lowField_setWidth e (by decide)]
    | readData | readCheck => rfl
  | _ => decide

/-! ### The number of an access -/

/-- An access of 32 bits below 0x100 is read back from the number of its triple (R56, log entry 8). -/
theorem ofTableWord_toTableWord {a : HostAccess} (hw : a.width = 32) (ho : a.off < 256) :
    HostAccess.ofTableWord 41 a.toTableWord = a := by
  obtain ⟨k, w, off, v⟩ := a
  obtain rfl : w = 32 := hw
  replace ho : off < 256 := ho
  have hnum : HostAccess.toTableWord ⟨k, 32, off, v⟩ = (if k = .write then 2 ^ 40 else 0) + off * 2 ^ 32 + v.toNat := by
    cases k <;> rfl
  generalize HostAccess.toTableWord ⟨k, 32, off, v⟩ = n at hnum
  have hv := v.isLt
  have hdata : BitVec.ofNat 32 n = v := by
    apply BitVec.eq_of_toNat_eq
    rw [BitVec.toNat_ofNat]
    split at hnum <;> omega
  have hoff : n / 2 ^ 32 % 256 = off := by split at hnum <;> omega
  have hkind : n.testBit 40 = decide (k = .write) := by
    rw [Nat.testBit_eq_decide_div_mod_eq, decide_eq_decide]
    split at hnum
    next hk => exact iff_of_true (by omega) hk
    next hk => exact iff_of_false (by omega) hk
  rw [HostAccess.ofTableWord, if_neg (by decide), hdata, hoff, hkind]
  cases k <;> rfl

/-- Every instruction's encoding is 32 bits wide and lies below 0x100 (R15, R32). -/
theorem encode_width_off (i : Instr) : (encode i).width = 32 ∧ (encode i).off < 256 := by
  obtain ⟨hw, -, hoff⟩ := (wellFormed_iff_mem_mappedOffsets _).mp (decode_ok_wellFormed (decode_encode i))
  have hmapped : ∀ off ∈ mappedOffsets, off < 256 := by decide
  exact ⟨hw, hmapped _ hoff⟩

/-! ### The statements about the encoding -/

/-- Settles O6: the decoder runs on each word. -/
theorem writtenOutWordsDecode : Obligations.WrittenOutWordsDecode := by
  unfold Obligations.WrittenOutWordsDecode
  decide

/-- Settles O7: the instruction is that of the low four bits, whose encoding is the write of those bits. -/
theorem cmdFieldAloneSelectsCommand : Obligations.CmdFieldAloneSelectsCommand := by
  refine fun v => ⟨commandOf (cmdField v), decode_wr .cmd v, encode_commandOf_cmdField v, fun v' hv => ?_⟩
  have hfield : cmdField v = cmdField v' := hv
  rw [hfield, decode_wr, decodeReg]

/-- Settles O8: `decode_encode`, through the number of the triple as well; and an access that decodes is its register's,
of which `encode_decodeReg` says the rest. -/
theorem decodeAndEncodeAgree : Obligations.DecodeAndEncodeAgree := by
  refine ⟨fun i _ => ⟨decode_encode i, ?_⟩, fun a i h => ?_⟩
  · obtain ⟨hw, hoff⟩ := encode_width_off i
    rw [decodeTableWord, ofTableWord_toTableWord hw hoff, decode_encode]
  · obtain ⟨hw, r, hr⟩ := (wellFormed_iff a).mp (decode_ok_wellFormed h)
    rw [decode_of_ofOffset hw hr] at h
    rw [encode_decodeReg h]
    exact ⟨hw, (Reg.offset_ofOffset hr).symm, rfl, rfl⟩

/-- A host access that decodes runs its instruction. -/
theorem hostAccess_of_decode {a : HostAccess} {i : Instr} (h : decode a = .ok i) (s : State) :
    hostAccess a s = exec i s := by
  rw [hostAccess, h]

/-- Settles O9: in each clause the next event is a host access that decodes to the instruction. -/
theorem stepRunsTheDecodedInstruction : Obligations.StepRunsTheDecodedInstruction := by
  refine ⟨fun s a i he h => ?_, fun s i _ => ?_, fun s nbits w i h => ?_⟩
  · rw [step, he]
    exact hostAccess_of_decode h _
  · exact hostAccess_of_decode (decode_encode i) s
  · rw [decodeTableWord] at h
    split at h
    next j hj =>
      cases h
      exact hostAccess_of_decode hj s
    next => cases h

end Sys2Proof.Machine
end

section
/-! The registers' values and write effects, written out (10_state.md R17 to R27), and the start of every command with
its snapshot and its frame (42_engine.md R80, R81). -/

namespace Sys2Proof.Machine
open Sys2Proof.Claims

/-! ### The values read -/

/-- A one-bit field. -/
theorem bit_eq_ofBool (b : Bool) : bit b = BitVec.ofBool b := by
  cases b <;> rfl

/-- The lengths of the command table are those of R66. -/
theorem descriptor_eq (c : Fin 10) : descriptor c = ⟨payloadTable c, replyTable c⟩ := by
  revert c
  decide

/-- CRC_CHECK is MATCH, VALUE and EXPECT in a row (R25). -/
theorem crcCheckWord_eq_append (s : State) :
    crcCheckWord s = 0#15 ++ bit (decide (crcWord s.crcData = s.crcExpect)) ++ crcWord s.crcData ++ s.crcExpect := by
  apply BitVec.eq_of_getLsbD_eq
  intro i hi
  rw [crcCheckWord_getLsbD, bit_eq_ofBool]
  change _ = @BitVec.getLsbD (15 + 1 + 8 + 8) _ i
  simp only [BitVec.getLsbD_append, ← Bool.beq_eq_decide_eq, BitVec.getLsbD_zero]
  by_cases hhigh : i - 8 - 8 < 1
  · rw [if_pos hhigh]
  · rw [if_neg hhigh, BitVec.getLsbD_of_ge _ _ (Nat.not_lt.mp hhigh)]

/-- Each register reads as its field table says (R17 to R27). -/
theorem regRead_eq_readValue (r : Reg) (s : State) : regRead r s = readValue r s := by
  cases r with
  | ctrl => cases h : s.ie <;> simp [regRead, readValue, h] <;> rfl
  | status =>
    have herr : errBits s.status.err = s.status.err.code := by cases s.status.err <;> rfl
    have hphase : phaseBits s.phase = s.phase.code := by cases s.phase <;> rfl
    simp only [regRead, readValue, statusWord, bit_eq_ofBool, herr, hphase]
  | crcCheck => exact crcCheckWord_eq_append s
  | desc c => simp only [regRead, readValue, descWord, descriptor_eq]
  | _ => rfl

/-! ### The effects of a write -/

/-- The frame of a command is its opcode and the payload words it sends (R51). -/
theorem txFrame_takeSnapshot (c : Fin 10) (s : State) : txFrame (takeSnapshot c s) = frameOf c s := by
  have hpay : 1 ≤ (descriptor c).npay.val ↔ c ∈ [3, 4, 8] := by
    revert c
    decide
  have hpay2 : (descriptor c).npay.val = 2 ↔ c = 3 := by
    revert c
    decide
  simp only [txFrame, takeSnapshot, hpay, hpay2]
  rfl

/-- The snapshot of a command with the lengths of R66. -/
theorem takeSnapshot_eq (c : Fin 10) (s : State) :
    takeSnapshot c s = snapshotOf s c (replyTable c) (payloadTable c) :=
  takeSnapshot_of_descriptor (descriptor_eq c) s

/-- An accepted start of a legal command, with its snapshot and its frame written out (R80, R81). -/
theorem commandWrite_started {s : State} (hb : s.status.busy = false) (c : Fin 10) :
    commandWrite (BitVec.ofNat 4 c.val) s =
      started s (BitVec.ofNat 4 c.val) (snapshotOf s c (replyTable c) (payloadTable c)) (frameOf c s) := by
  rw [commandWrite_legal hb, txFrame_takeSnapshot, takeSnapshot_eq]
  rfl

/-- A W1C bit keeps the flag unless it is written 1 (R19). -/
theorem and_not_eq_ite (flag b : Bool) : (flag && !b) = if b then false else flag := by
  cases b <;> simp

/-- Each write takes the effect that R16 to R27 give for its register. -/
theorem regWrite_eq_writtenState (r : Reg) (v : Word) (s : State) : regWrite r v s = writtenState r v s := by
  cases r with
  | cmd =>
    rw [regWrite, writtenState, cmdField]
    cases hb : s.status.busy with
    | true => exact commandWrite_busy hb _
    | false =>
      generalize v.extractLsb' 0 4 = x
      rcases cmd_cases x with ⟨c, rfl⟩ | hc
      · have hlt := legalIndex_lt c
        have hindex : (⟨(BitVec.ofNat 4 c.val).toNat, hlt⟩ : Fin 10) = c := by
          revert c
          decide
        simp only [commandWrite_started hb, dif_pos hlt, hindex]
        rfl
      · simp only [Machine.commandWrite_illegal hb hc, dif_neg (Nat.not_lt.mpr hc)]
        rfl
  | status => simp only [regWrite, acknowledge_eq, writtenState, and_not_eq_ite]
  | _ => rfl

/-! ### The statements about one access -/

/-- The offsets of R15 are those of the decoder. -/
theorem offsetOf_eq (r : Reg) : offsetOf r = r.offset := by
  cases r <;> rfl

/-- A write at a register's offset, with its effect written out. -/
theorem step_write_writtenState (r : Reg) (v : Word) (s : State) :
    step (s.place [.host ⟨.write, 32, offsetOf r, v⟩]) = .next (writtenState r v s) := by
  rw [offsetOf_eq, step_write, regWrite_eq_writtenState]

/-- A read at a register's offset, with its value written out. -/
theorem step_read_readValue (r : Reg) (s : State) :
    step (s.place [.host ⟨.read, 32, offsetOf r, 0#32⟩]) =
      .next { s with env := { s.env with readData := some (readValue r s) } } := by
  rw [offsetOf_eq, step_read, readRegister, regRead_eq_readValue]
  rfl

/-- Settles O10: the two steps of a legal access; any other access breaks R32, whose offsets are those listed. -/
theorem legalAccessTakesItsRegisterEffect : Obligations.LegalAccessTakesItsRegisterEffect := by
  refine ⟨fun r s => ⟨fun v => step_write_writtenState r v s, step_read_readValue r s⟩, fun a s h => ?_⟩
  rw [← wellFormed_iff_mem_mappedOffsets, Bool.not_eq_true] at h
  exact hostAccess_illegal h s

/-- Settles O15: the write effect of STATUS. -/
theorem statusWriteClearsOnlyDoneAndOvr : Obligations.StatusWriteClearsOnlyDoneAndOvr :=
  fun s v => step_write_writtenState .status v s

/-- Settles O5: the four decodings and effects are those of CRC_DATA and CRC_CHECK, and two checksums are computed. -/
theorem crcUnitComputesAndCompares : Obligations.CrcUnitComputesAndCompares := by
  refine ⟨fun v => ⟨decode_wr .crcData v, decode_wr .crcCheck v, decode_rd .crcCheck, decode_rd .crcData⟩,
    fun _ _ => rfl, fun _ _ => rfl, fun _ => rfl, fun s => ?_, crcWord_zero, ?_⟩
  · have hread : exec (.crcUnit .readCheck) s = .next (readRegister .crcCheck s) := rfl
    rw [hread, readRegister, regRead_eq_readValue]
    simp only [readValue, bit, decide_eq_true_eq]
    rfl
  · simp [crc8, crcByte, crcBits, crcBit]

/-- Settles O48: an accepted write stores the index, an overrun leaves it, and CMD reads it back. -/
theorem cmdReadsTheLastAcceptedIndex : Obligations.CmdReadsTheLastAcceptedIndex := by
  refine ⟨fun s v => ⟨_, step_cmdWrite v s, fun hb => ?_, fun hb => ?_⟩, step_read_readValue .cmd, rfl⟩
  · have hcmd : (commandWrite (v.extractLsb' 0 4) s).cmd = v.extractLsb' 0 4 := by
      rcases cmd_cases (v.extractLsb' 0 4) with ⟨c, hc⟩ | hc
      · rw [hc, commandWrite_legal hb]
      · rw [Machine.commandWrite_illegal hb hc]
    rw [regRead, hcmd]
    exact (and_lowBits_eq_setWidth v 4).symm
  · rw [commandWrite_busy hb]
    exact ⟨rfl, rfl⟩

/-- A word with no bit outside `m` is its own part in `m`. -/
theorem and_eq_self_of_and_not_eq_zero {v m : Word} (h : v &&& ~~~m = 0#32) : v &&& m = v := by
  apply BitVec.eq_of_getLsbD_eq
  intro i hi
  have hbit : (v.getLsbD i && !m.getLsbD i) = false := by
    simpa [hi] using congrArg (BitVec.getLsbD · i) h
  rw [BitVec.getLsbD_and]
  cases hv : v.getLsbD i <;> simp_all

/-- Settles O13: what a plain RW register shows are its writable bits, which a write stores, and it shows in no other
register. -/
theorem writtenRegisterReadsBack : Obligations.WrittenRegisterReadsBack := by
  intro r v s t hr h
  have hplain : r ≠ .cmd ∧ r ≠ .status ∧ definedBits r = writableBits r := by
    have hlisted : ∀ q ∈ [Reg.ctrl, .addr, .payload0, .payload1, .crcData],
        q ≠ .cmd ∧ q ≠ .status ∧ definedBits q = writableBits q := by decide
    rcases hr with hr | ⟨c, rfl⟩
    · exact hlisted r hr
    · exact ⟨nofun, nofun, rfl⟩
  obtain ⟨hcmd, hstatus, hbits⟩ := hplain
  rw [step_write] at h
  cases h
  refine ⟨?_, fun q hq hcrc => regRead_regWrite_other hcmd hstatus hq hcrc v s⟩
  rw [← regRead_regWrite_same hcmd hstatus v s, and_eq_self_of_and_not_eq_zero (hbits ▸ regRead_reserved r _)]

/-- Settles O1: the checksum is computed on each vector. -/
theorem crcReferenceVectors : Obligations.CrcReferenceVectors := by
  simp [Obligations.CrcReferenceVectors, enc, Group.bytes, grpOk, crcWord, msb, lsb, crc8, crcByte, crcBits, crcBit]

/-- ERR, RES_COUNT, CRC_FAIL and PHASE stand at bits 3:2, 6:5, 10:8 and 14:12 of STATUS (R19). -/
theorem statusWord_fields (st : Status) (ph : Phase) :
    (statusWord st ph).extractLsb' 2 2 = st.err.code
      ∧ (statusWord st ph).extractLsb' 5 2 = BitVec.ofNat 2 st.resCount.val
      ∧ (statusWord st ph).extractLsb' 8 3 = st.crcFail ∧ (statusWord st ph).extractLsb' 12 3 = ph.code := by
  refine ⟨?_, ?_, ?_, ?_⟩
  all_goals
    refine extractLsb'_eq_of_getLsbD fun i hi => ?_
    rw [statusWord_getLsbD]
    simp (disch := omega) only [if_neg, if_pos]
    congr 1; omega

/-- Bits 31:15 of STATUS are reserved (R19). -/
theorem statusWord_reserved (st : Status) (ph : Phase) : (statusWord st ph).extractLsb' 15 17 = 0#17 :=
  extractLsb'_eq_of_getLsbD fun i _ => by rw [statusWord_getLsbD_of_ge _ _ (by omega), BitVec.getLsbD_zero]

/-- The flags of STATUS stand at bits 0, 1, 4, 7 and 11 (R19). -/
theorem statusWord_flags (st : Status) (ph : Phase) :
    (statusWord st ph).getLsbD 0 = st.busy ∧ (statusWord st ph).getLsbD 1 = st.done
      ∧ (statusWord st ph).getLsbD 4 = st.resValid ∧ (statusWord st ph).getLsbD 7 = st.ioRd
      ∧ (statusWord st ph).getLsbD 11 = st.ovr := by
  simp only [statusWord_getLsbD]
  simp

/-- Settles O17: STATUS is `statusWord`, read off field by field. -/
theorem statusWordLayout : Obligations.StatusWordLayout := by
  intro s v
  obtain ⟨hbusy, hdone, hvalid, hioRd, hovr⟩ := statusWord_flags s.status s.phase
  obtain ⟨herr, hcount, hcrcFail, hphase⟩ := statusWord_fields s.status s.phase
  have hcountNat := congrArg BitVec.toNat hcount
  rw [BitVec.toNat_ofNat, Nat.mod_eq_of_lt s.status.resCount.isLt] at hcountNat
  exact ⟨hbusy, hdone, herr, hvalid, hcountNat, hioRd, hcrcFail, hovr, hphase, statusWord_reserved ..⟩

/-! ### The start of every command -/

/-- While BUSY = 0 a command's instruction starts it, with its snapshot and its frame written out (R69 to R78). -/
theorem exec_started {s : State} (hb : s.status.busy = false) (c : Fin 10) :
    exec (commandOf (BitVec.ofNat 4 c.val)) s =
      .next (started s (BitVec.ofNat 4 c.val) (snapshotOf s c (replyTable c) (payloadTable c)) (frameOf c s)) := by
  rw [exec_commandOf, commandWrite_started hb]

/-- Settles O19: the frames of the four commands are those of R51. -/
theorem writeOnlyCommandsStart : Obligations.WriteOnlyCommandsStart :=
  fun _ hb => ⟨exec_started hb 0, exec_started hb 3, exec_started hb 4, exec_started hb 8⟩

/-- Settles O20: the six commands send no payload. -/
theorem readCommandsStart : Obligations.ReadCommandsStart :=
  fun _ hb => ⟨exec_started hb 1, exec_started hb 2, exec_started hb 5, exec_started hb 6, exec_started hb 7,
    exec_started hb 9⟩

end Sys2Proof.Machine
end

section
/-! Whole commands (41_commands.md; 42_engine.md R81 to R88): the wait, the delivery of a reply, the write-only
commands, and the settings a command starts with. -/

namespace Sys2Proof.Machine
open Sys2Proof.Claims

/-! ### The wait -/

/-- A tick outside WAIT is discarded (R103). -/
theorem step_tick_outside_wait {s : State} (hp : s.phase ≠ .wait) : step (s.place [.tick]) = .next s := by
  rw [step_place, place_nil, fire, if_neg hp]

/-- `w` ticks after a positive delay take more than `w` ms, as a period is at least 1 ms (R85). -/
theorem wait_exceeds_ms (w d : Nat) (hd : 0 < d) : w * Config.nsPerMs < d + w * Config.tickPeriodNs := by
  have hperiod : w * Config.nsPerMs ≤ w * Config.tickPeriodNs := Nat.mul_le_mul_left w (Nat.le_add_right _ _)
  omega

/-- Settles O24: the ticks are those of `runsTo_waitTicks` and `runsTo_waitEnd`, and 17 bits hold 65536. -/
theorem waitTakesWaitPlusOneTicks : Obligations.WaitTakesWaitPlusOneTicks := by
  refine ⟨fun s n hp hc => runsTo_waitTicks hp hc n, fun s hp hc => runsTo_waitEnd hp hc,
    fun s hp => step_tick_outside_wait hp, fun w d => wait_exceeds_ms w.toNat d, fun w => ?_⟩
  have hw := w.isLt
  rw [BitVec.toNat_ofNat]
  omega

/-! ### The delivery of a reply -/

/-- The state a read command leaves when its reply is delivered (R88). -/
def delivered (s : State) (c : Fin 10) (n : Fin 4) (bytes : List Byte) : State :=
  { finished s c n ⟨false, true, .none, true, n, false, 0#3, s.status.ovr⟩ bytes with
    result0 := wordOr0 bytes n.val 0
    result1 := wordOr0 bytes n.val 1
    result2 := wordOr0 bytes n.val 2 }

/-- A reply of the right length whose groups all pass is delivered (R86 to R88). -/
theorem runsTo_delivered (s : State) (c : Fin 10) {n : Fin 4} {bytes : List Byte} (hlen : bytes.length = 3 * n.val)
    (hgood : ∀ k < n.val, groupGood bytes k) :
    RunsTo (awaitingReply s c n) [.busReadAnswer (.ok bytes), .internal] (delivered s c n bytes) := by
  have hmask : crcFailMask bytes n.val = 0#3 :=
    (crcFailMask_eq_zero_iff_groupGood (Nat.lt_succ_iff.mp n.isLt)).mpr hgood
  have hword (k : Nat) : (replyWords bytes n.val).getD k 0#16 = wordOr0 bytes n.val k := replyWords_getD ..
  rw [runsTo_cons_of_fire (fire_readAnswer rfl _), readResp_ok (s := awaitingReply s c n) hlen,
    runsTo_cons_of_fire (fire_internal rfl), checkStep_ok, runsTo_nil, delivered, ← hword, ← hword, ← hword]
  · rfl
  · exact hmask

/-- STATUS after a completion with `n` words (41_commands.md section 3). -/
theorem statusWord_delivered (n : Fin 4) (ovr : Bool) :
    statusWord ⟨false, true, .none, true, n, false, 0#3, ovr⟩ .idle =
      BitVec.ofNat 32 (n.val * 0x20 + 0x12 + if ovr then 0x800 else 0) := by
  revert n ovr
  decide

/-- Settles O27: up to its BusRead the command runs to `awaitingReply`, and from there to the delivery. -/
theorem readCommandDeliversItsReply : Obligations.ReadCommandDeliversItsReply :=
  fun s hb p hp bytes hlen hgood => ⟨delivered s p.2.1 p.2.2 bytes,
    runsTo_upToRead_append hb hp (runsTo_delivered s p.2.1 hlen hgood), rfl, statusWord_delivered p.2.2 s.status.ovr⟩

/-- Once a reply is delivered, RESULTk holds its word `k` (R23, R88). -/
theorem fire_readResult (s : State) (c : Fin 10) (n : Fin 4) (bytes : List Byte) {k : Nat} (hk : k < 3) :
    ∃ t, fire (.host ⟨.read, 32, 0x18 + 4 * k, 0#32⟩) (delivered s c n bytes) = .next t
      ∧ t.env.readData = some ((wordOr0 bytes n.val k).setWidth 32) := by
  obtain rfl | rfl | rfl : k = 0 ∨ k = 1 ∨ k = 2 := by omega
  · exact ⟨_, fire_rd .result0 _, rfl⟩
  · exact ⟨_, fire_rd .result1 _, rfl⟩
  · exact ⟨_, fire_rd .result2 _, rfl⟩

/-- Settles O46: the run of O27 goes on with the read of RESULTk. -/
theorem deliveredWordsAreReadAtTheResultRegisters : Obligations.DeliveredWordsAreReadAtTheResultRegisters := by
  intro s hb p hp bytes hlen hgood k hk
  obtain ⟨t, hread, hdata⟩ := fire_readResult s p.2.1 p.2.2 bytes hk
  refine ⟨t, runsTo_upToRead_append hb hp ?_, hdata⟩
  exact (runsTo_append (es := [_, _]) ..).mpr ⟨_, runsTo_delivered s p.2.1 hlen hgood,
    (runsTo_cons_of_fire hread).mpr ((runsTo_nil t t).mpr rfl)⟩

/-! ### The write-only commands -/

/-- The write-only commands are the commands of their index, with no reply and the payload words of R66. -/
theorem writeOnlyCommands_spec {p : Instr × Fin 10 × Fin 3} (hp : p ∈ writeOnlyCommands) :
    p.1 = commandOf (BitVec.ofNat 4 p.2.1.val) ∧ descriptor p.2.1 = ⟨p.2.2, 0⟩ := by
  revert p
  decide

/-- Settles O30: the CMD write starts the command, and the answer OK completes it. -/
theorem writeOnlyCommandCompletesOnItsWrite : Obligations.WriteOnlyCommandCompletesOnItsWrite := by
  intro s hb p hp
  obtain ⟨hinstr, hdesc⟩ := writeOnlyCommands_spec hp
  refine ⟨_, ?_, rfl, statusWord_delivered 0 s.status.ovr⟩
  rw [hinstr, runsTo_cons_of_fire (fire_commandOf _ s), commandWrite_legal hb, takeSnapshot_of_descriptor hdesc,
    runsTo_cons_of_fire (fire_writeAnswer rfl _), writeResp_ok_writeOnly rfl, runsTo_nil]
  rfl

/-! ### The settings a command starts with -/

/-- The state once the host has set ADDR, PAYLOAD0, PAYLOAD1 and WAIT_MSc (R44). -/
def configured (s : State) (c : Fin 10) (a p q w : Word) : State :=
  { s with
    taddr := a.extractLsb' 0 7
    payload0 := halfField p
    payload1 := halfField q
    waitMs := s.waitMs.set c (halfField w) }

/-- The four writes lead to `configured`, and the CMD write starts the command there. -/
theorem runsTo_configured_start {s : State} (hb : s.status.busy = false) (c : Fin 10) (a p q w : Word) :
    RunsTo s [.host (.wr .addr a), .host (.wr .payload0 p), .host (.wr .payload1 q), .host (.wr (.waitMs c) w),
        .host (.wr .cmd (BitVec.ofNat 32 c.val))]
      (started (configured s c a p q w) (BitVec.ofNat 4 c.val)
        (snapshotOf (configured s c a p q w) c (replyTable c) (payloadTable c))
        (frameOf c (configured s c a p q w))) := by
  have hindex : cmdField (BitVec.ofNat 32 c.val) = BitVec.ofNat 4 c.val := by
    revert c
    decide
  have hb' : (configured s c a p q w).status.busy = false := hb
  simp only [runsTo_cons_of_fire (fire_wr ..), runsTo_nil]
  rw [← commandWrite_started hb', ← hindex]
  rfl

/-- Settles O43: the start copies the registers of `configured`. -/
theorem settingsWrittenBeforeCmdAreUsed : Obligations.SettingsWrittenBeforeCmdAreUsed := by
  intro s c a p q w hb
  have hwait : (configured s c a p q w).waitMs.get c = halfField w := (setWaitMs_get s c c _).trans (if_pos rfl)
  exact ⟨_, runsTo_configured_start hb c a p q w, rfl, rfl, rfl, rfl, hwait, rfl⟩

end Sys2Proof.Machine
end

section
/-! What a step does to the completion record and to the registers (10_state.md R20; 42_engine.md R88, R89;
60_exceptions.md R98), said once by `RecordStep`; then the statements read off from it. -/

namespace Sys2Proof.Machine
open Sys2Proof.Claims

/-! ### What a step does to STATUS, CMD and the results -/

/-- What an event does to CMD, STATUS and RESULT0..2, one constructor a way to write STATUS (R20). -/
inductive RecordStep (s : State) : Event → State → Prop where
  | quiet {e t} (hcmd : t.cmd = s.cmd) (hstatus : t.status = s.status) (hresult : t.result = s.result) :
      RecordStep s e t
  | acknowledges {e t} (hacc : accesses e .write .status = true) (hcmd : t.cmd = s.cmd)
      (hstatus : t.status = s.status.w1c (writtenWord e)) (hresult : t.result = s.result) : RecordStep s e t
  | overruns {e t} (hacc : accesses e .write .cmd = true) (hbusy : s.status.busy = true) (hcmd : t.cmd = s.cmd)
      (hstatus : t.status = s.status.overrun) (hresult : t.result = s.result) : RecordStep s e t
  | starts {e t} (c : BitVec 4) (hc : c.toNat < 10) (hstart : startIndex s e = some c) (hcmd : t.cmd = c)
      (hstatus : t.status = ⟨true, false, .none, false, 0, false, 0#3, s.status.ovr⟩) : RecordStep s e t
  | rejects {e t} (c : BitVec 4) (hstart : startIndex s e = some c) (hout : outcomeOf s e = some .illegal)
      (hcmd : t.cmd = c) (hstatus : t.status = ⟨false, true, .illegal, false, 0, false, 0#3, s.status.ovr⟩) :
      RecordStep s e t
  | fails {e t} (k : ErrKind) (ioRd : Bool) (m : BitVec 3) (hrun : s.phase ≠ .idle) (hout : outcomeOf s e = some k)
      (hk : k ≠ .none) (hio : ioRd = true → k = .io ∧ s.phase = .read) (hmask : m ≠ 0#3 → k = .protocol)
      (hcmd : t.cmd = s.cmd)
      (hstatus : t.status = ⟨false, true, k, s.status.resValid, s.status.resCount, ioRd, m, s.status.ovr⟩)
      (hresult : t.result = s.result) : RecordStep s e t
  | succeeds {e t} (hrun : s.phase ≠ .idle) (hout : outcomeOf s e = some .none) (hcmd : t.cmd = s.cmd)
      (hstatus : t.status = ⟨false, true, .none, true, s.snap.nreply, false, 0#3, s.status.ovr⟩) : RecordStep s e t
  | resets {t} (hstatus : t.status = Status.reset) : RecordStep s .reset t

/-- A CMD write: an overrun, a start, or the completion of an illegal index (R80, R82, R83). -/
theorem recordStep_commandWrite {s : State} (hinv : Inv s) {a : HostAccess} (hk : a.kind = .write) (hw : a.width = 32)
    (ho : a.off = Reg.offset .cmd) : RecordStep s (.host a) (commandWrite (cmdField a.data) s) := by
  cases hb : s.status.busy with
  | true =>
    rw [commandWrite_busy hb]
    exact .overruns (accesses_self hk hw ho) hb rfl rfl rfl
  | false =>
    have hstart := startIndex_accepted hb hk hw ho
    have hidle := (hinv.idle hb).1
    rcases cmd_cases (cmdField a.data) with ⟨c, hc⟩ | hc
    · rw [hc] at hstart ⊢
      rw [commandWrite_legal hb]
      exact .starts _ (legalIndex_lt c) hstart rfl rfl
    · rw [commandWrite_illegal hb hc]
      exact .rejects _ hstart (by simp only [outcomeOf, hidle, hstart, if_pos hc]) rfl rfl

/-- The answer to the BusWrite (R84). -/
theorem recordStep_writeResp {s : State} (hp : s.phase = .write) (a : WriteAnswer) :
    RecordStep s (.busWriteAnswer a) (writeResp a s) := by
  have hrun : s.phase ≠ .idle := by simp [hp]
  cases a with
  | fail =>
    rw [writeResp_fail]
    exact .fails .io false 0#3 hrun (by simp [outcomeOf, hp]) nofun nofun (absurd rfl) rfl rfl rfl
  | ok =>
    by_cases hn : s.snap.nreply = 0
    · rw [writeResp_ok_writeOnly hn]
      exact .succeeds hrun (by simp [outcomeOf, hp, hn]) rfl (by rw [hn])
    · rw [writeResp_ok_read hn]
      exact .quiet rfl rfl rfl

/-- A FAIL, or a reply of the wrong length, is an IO_ERROR (R40, R86). -/
theorem outcomeOf_badReply {s : State} (hp : s.phase = .read) {a : ReadAnswer}
    (hbad : ∀ bs, a = .ok bs → bs.length ≠ rxLength s.snap) : outcomeOf s (.busReadAnswer a) = some .io := by
  cases a with
  | fail => simp [outcomeOf, hp]
  | ok bs =>
    have hlen : bs.length ≠ 3 * s.snap.nreply.val := hbad bs rfl
    simp [outcomeOf, hp, hlen]

/-- The answer to the BusRead (R86). -/
theorem recordStep_readResp {s : State} (hp : s.phase = .read) (a : ReadAnswer) :
    RecordStep s (.busReadAnswer a) (readResp a s) := by
  by_cases hgood : ∃ bs, a = .ok bs ∧ bs.length = rxLength s.snap
  · obtain ⟨bs, rfl, hlen⟩ := hgood
    rw [readResp_ok hlen]
    exact .quiet rfl rfl rfl
  · have hbad : ∀ bs, a = .ok bs → bs.length ≠ rxLength s.snap := fun bs hbs hlen => hgood ⟨bs, hbs, hlen⟩
    rw [readResp_bad hbad]
    exact .fails .io true 0#3 (by simp [hp]) (outcomeOf_badReply hp hbad) nofun (fun _ => ⟨rfl, hp⟩) (absurd rfl)
      rfl rfl rfl

/-- A tick in WAIT leaves the record alone (R85). -/
theorem recordStep_waitTick (s : State) : RecordStep s .tick (waitTick s) := by
  by_cases hlast : s.snap.wait.toNat + 1 ≤ (s.cnt + 1#17).toNat
  · rw [waitTick_last hlast]
    exact .quiet rfl rfl rfl
  · rw [waitTick_more (Nat.not_le.mp hlast)]
    exact .quiet rfl rfl rfl

/-- CHECK completes the command, with a failing group or with its words (R87). -/
theorem recordStep_checkStep {s : State} (hp : s.phase = .check) : RecordStep s .internal (checkStep s) := by
  have hrun : s.phase ≠ .idle := by simp [hp]
  have hout := outcomeOf_check hp
  by_cases hmask : crcFailMask s.rx s.snap.nreply.val = 0#3
  · rw [checkStep_ok hmask]
    exact .succeeds hrun (by rw [hout, if_pos hmask]) rfl rfl
  · rw [checkStep_fail hmask]
    exact .fails .protocol false _ hrun (by rw [hout, if_neg hmask]) nofun nofun (fun _ => rfl) rfl rfl rfl

/-- From every state of the invariant an event writes CMD, STATUS and the results only in the ways of `RecordStep`. -/
theorem fire_recordStep {s t : State} {e : Event} (hinv : Inv s) (h : fire e s = .next t) : RecordStep s e t := by
  have hf := fire_fires e s
  rw [h] at hf
  cases hf with
  | read => exact .quiet rfl rfl rfl
  | write a r hk hw ho =>
    cases r with
    | cmd => exact recordStep_commandWrite hinv hk hw ho
    | status => exact .acknowledges (accesses_self hk hw ho) rfl rfl rfl
    | _ => exact .quiet rfl rfl rfl
  | writeAnswer a =>
    split
    next hp => exact recordStep_writeResp hp a
    next => exact .quiet rfl rfl rfl
  | readAnswer a =>
    split
    next hp => exact recordStep_readResp hp a
    next => exact .quiet rfl rfl rfl
  | tick =>
    split
    · exact recordStep_waitTick s
    · exact .quiet rfl rfl rfl
  | internal =>
    split
    next hp => exact recordStep_checkStep hp
    next => exact .quiet rfl rfl rfl
  | reset => exact .resets rfl

/-- The same of a step, whose event is first taken from the environment. -/
theorem step_recordStep {s t : State} (hinv : Inv s) (h : step s = .next t) :
    RecordStep (takeEvent s) (nextEvent s.env) t :=
  fire_recordStep (hinv.setEnv _) h

/-! ### The writers of each STATUS field -/

/-- The setters and clearers that R20 names, but for the clearers of OVR. -/
structure StatusWriters (s : State) (e : Event) (t : State) : Prop where
  busy_rises : t.status.busy = true → s.status.busy = false → ∃ c, startIndex s e = some c ∧ c.toNat < 10
  busy_falls : t.status.busy = false → s.status.busy = true → e = .reset ∨ ∃ k, outcomeOf s e = some k
  done_rises : t.status.done = true → s.status.done = false → ∃ k, outcomeOf s e = some k
  done_falls : t.status.done = false → s.status.done = true →
    e = .reset ∨ (startIndex s e).isSome = true ∨ (accesses e .write .status = true ∧ (writtenWord e).getLsbD 1 = true)
  err_changes : t.status.err ≠ s.status.err →
    e = .reset ∨ (startIndex s e).isSome = true ∨ outcomeOf s e = some t.status.err
  result_changes : t.status.resValid ≠ s.status.resValid ∨ t.status.resCount ≠ s.status.resCount →
    e = .reset ∨ (startIndex s e).isSome = true ∨ outcomeOf s e = some .none
  ioRd_rises : t.status.ioRd = true → s.status.ioRd = false → outcomeOf s e = some .io ∧ s.phase = .read
  ioRd_falls : t.status.ioRd = false → s.status.ioRd = true → e = .reset ∨ (startIndex s e).isSome = true
  crcFail_changes : t.status.crcFail ≠ s.status.crcFail →
    e = .reset ∨ (startIndex s e).isSome = true ∨ outcomeOf s e = some .protocol
  ovr_rises : t.status.ovr = true → s.status.ovr = false → accesses e .write .cmd = true ∧ s.status.busy = true

/-- The writers of STATUS are those of R20: a running command's record is clear, so its completion only sets fields. -/
theorem RecordStep.statusWriters {s t : State} {e : Event} (h : RecordStep s e t) (hinv : Inv s) :
    StatusWriters s e t := by
  cases h with
  | quiet _ hstatus => constructor <;> simp +contextual [hstatus]
  | acknowledges hacc _ hstatus => constructor <;> simp +contextual [hstatus, Status.w1c, hacc]
  | overruns hacc hbusy _ hstatus => constructor <;> simp +contextual [hstatus, Status.overrun, hacc, hbusy]
  | starts c hc hstart _ hstatus => constructor <;> simp +contextual [hstatus, hstart, hc]
  | rejects c hstart hout _ hstatus => constructor <;> simp +contextual [hstatus, hstart, hout]
  | fails k ioRd m hrun hout hk hio hmask _ hstatus =>
    have hclear := (hinv.running hrun).1
    generalize s.status.ovr = o at hclear
    constructor <;> simp +contextual [hstatus, hclear, hout]
    case ioRd_rises => exact hio
    case crcFail_changes => exact fun hm => .inr (.inr (hmask hm))
  | succeeds hrun hout _ hstatus =>
    have hclear := (hinv.running hrun).1
    generalize s.status.ovr = o at hclear
    constructor <;> simp +contextual [hstatus, hclear, hout]
  | resets hstatus => constructor <;> simp +contextual [hstatus, Status.reset]

/-- Settles O34: the writers of R20 are those of `RecordStep`, and OVR falls as `fire_clears_ovr` says. -/
theorem statusFieldsChangeOnlyAtTheirEvents : Obligations.StatusFieldsChangeOnlyAtTheirEvents := by
  intro s t hinv h
  have hw := (step_recordStep hinv h).statusWriters (hinv.setEnv _)
  exact ⟨hw.busy_rises, hw.busy_falls, hw.done_rises, hw.done_falls, hw.err_changes, hw.result_changes,
    hw.ioRd_rises, hw.ioRd_falls, hw.crcFail_changes, hw.ovr_rises, fun ht hs => fire_clears_ovr h hs ht⟩

/-! ### The writers of the other registers -/

/-- CMD changes only at an accepted start, to its index (R18). -/
theorem RecordStep.start_of_cmd_changes {s t : State} {e : Event} (h : RecordStep s e t) (hreset : e ≠ .reset)
    (hcmd : t.cmd ≠ s.cmd) : startIndex s e = some t.cmd := by
  cases h with
  | starts c _ hstart ht => rw [hstart, ht]
  | rejects c hstart _ ht => rw [hstart, ht]
  | quiet ht | acknowledges _ ht | overruns _ _ ht | fails _ _ _ _ _ _ _ _ ht | succeeds _ _ ht => exact absurd ht hcmd
  | resets => exact absurd rfl hreset

/-- A result changes only at an accepted start or at a completion with ERR = 0 (R88). -/
theorem RecordStep.writer_of_result_changes {s t : State} {e : Event} (h : RecordStep s e t) (hreset : e ≠ .reset)
    {k : Nat} (hk : t.result k ≠ s.result k) : (startIndex s e).isSome = true ∨ outcomeOf s e = some .none := by
  cases h with
  | starts c _ hstart => exact .inl (by rw [hstart]; rfl)
  | rejects c hstart => exact .inl (by rw [hstart]; rfl)
  | succeeds _ hout => exact .inr hout
  | quiet _ _ ht | acknowledges _ _ _ ht | overruns _ _ _ _ ht | fails _ _ _ _ _ _ _ _ _ _ ht =>
    exact absurd (congrFun ht k) hk
  | resets => exact absurd rfl hreset

/-- The registers that the host alone sets (R17, R21, R22, R24 to R26). -/
def settings (s : State) : Bool × Addr × Half × Half × Half × Byte × Vector Half 10 :=
  (s.ie, s.taddr, s.payload0, s.payload1, s.crcData, s.crcExpect, s.waitMs)

theorem settings_commandWrite (c : BitVec 4) (s : State) : settings (commandWrite c s) = settings s := by
  cases hb : s.status.busy with
  | true => rw [commandWrite_busy hb]; rfl
  | false =>
    rcases cmd_cases c with ⟨d, rfl⟩ | hc
    · rw [commandWrite_legal hb]; rfl
    · rw [commandWrite_illegal hb hc]; rfl

theorem settings_writeResp (a : WriteAnswer) (s : State) : settings (writeResp a s) = settings s := by
  cases a with
  | fail => rw [writeResp_fail]; rfl
  | ok =>
    by_cases hn : s.snap.nreply = 0
    · rw [writeResp_ok_writeOnly hn]; rfl
    · rw [writeResp_ok_read hn]; rfl

theorem settings_readResp (a : ReadAnswer) (s : State) : settings (readResp a s) = settings s := by
  by_cases hgood : ∃ bs, a = .ok bs ∧ bs.length = rxLength s.snap
  · obtain ⟨bs, rfl, hlen⟩ := hgood
    rw [readResp_ok hlen]; rfl
  · rw [readResp_bad fun bs hbs hlen => hgood ⟨bs, hbs, hlen⟩]; rfl

theorem settings_waitTick (s : State) : settings (waitTick s) = settings s := by
  by_cases hlast : s.snap.wait.toNat + 1 ≤ (s.cnt + 1#17).toNat
  · rw [waitTick_last hlast]; rfl
  · rw [waitTick_more (Nat.not_le.mp hlast)]; rfl

theorem settings_checkStep (s : State) : settings (checkStep s) = settings s := by
  by_cases hmask : crcFailMask s.rx s.snap.nreply.val = 0#3
  · rw [checkStep_ok hmask]; rfl
  · rw [checkStep_fail hmask]; rfl

/-- An event but reset is a register write, or leaves the host's registers alone. -/
theorem fire_settings {s t : State} {e : Event} (h : fire e s = .next t) (hreset : e ≠ .reset) :
    (∃ r, accesses e .write r = true ∧ t = regWrite r (writtenWord e) s) ∨ settings t = settings s := by
  have hf := fire_fires e s
  rw [h] at hf
  cases hf with
  | read => exact .inr rfl
  | write a r hk hw ho => exact .inl ⟨r, accesses_self hk hw ho, rfl⟩
  | writeAnswer a => exact .inr (by split; exacts [settings_writeResp a s, rfl])
  | readAnswer a => exact .inr (by split; exacts [settings_readResp a s, rfl])
  | tick => exact .inr (by split; exacts [settings_waitTick s, rfl])
  | internal => exact .inr (by split; exacts [settings_checkStep s, rfl])
  | reset => exact absurd rfl hreset

/-- A register that the host alone sets changes only at a write to it. -/
structure SettingsWriters (s : State) (e : Event) (t : State) : Prop where
  ie : t.ie ≠ s.ie → accesses e .write .ctrl = true
  taddr : t.taddr ≠ s.taddr → accesses e .write .addr = true
  payload0 : t.payload0 ≠ s.payload0 → accesses e .write .payload0 = true
  payload1 : t.payload1 ≠ s.payload1 → accesses e .write .payload1 = true
  crcData : t.crcData ≠ s.crcData → accesses e .write .crcData = true
  crcExpect : t.crcExpect ≠ s.crcExpect → accesses e .write .crcCheck = true
  waitMs : ∀ c : Fin 10, t.waitMs.get c ≠ s.waitMs.get c → accesses e .write (.waitMs c) = true

theorem SettingsWriters.of_settings_eq {s t : State} {e : Event} (h : settings t = settings s) :
    SettingsWriters s e t := by
  simp only [settings, Prod.mk.injEq] at h
  obtain ⟨hie, htaddr, hpay0, hpay1, hdata, hexpect, hwait⟩ := h
  exact ⟨(absurd hie ·), (absurd htaddr ·), (absurd hpay0 ·), (absurd hpay1 ·), (absurd hdata ·), (absurd hexpect ·),
    fun c => (absurd (congrArg (Vector.get · c) hwait) ·)⟩

/-- A register write changes its own register at most, or starts a command. -/
theorem settingsWriters_regWrite {e : Event} {r : Reg} (hacc : accesses e .write r = true) (v : Word) (s : State) :
    SettingsWriters s e (regWrite r v s) := by
  cases r with
  | cmd => exact .of_settings_eq (settings_commandWrite _ s)
  | waitMs c =>
    refine ⟨(absurd rfl ·), (absurd rfl ·), (absurd rfl ·), (absurd rfl ·), (absurd rfl ·), (absurd rfl ·),
      fun d hd => ?_⟩
    by_cases hdc : d = c
    · rwa [hdc]
    · exact absurd ((setWaitMs_get s c d _).trans (if_neg hdc)) hd
  | ctrl | addr | payload0 | payload1 | crcData | crcCheck => constructor <;> simp [regWrite, hacc]
  | status | result0 | result1 | result2 | desc => exact .of_settings_eq rfl

/-- Settles O35: the settings change only at their own writes, CMD and the results only as `RecordStep` says. -/
theorem registersChangeOnlyByTheirWriters : Obligations.RegistersChangeOnlyByTheirWriters := by
  intro s t hinv h hreset
  have hr := step_recordStep hinv h
  have hset : SettingsWriters (takeEvent s) (nextEvent s.env) t := by
    rcases fire_settings (s := takeEvent s) h hreset with ⟨r, hacc, rfl⟩ | hsame
    · exact settingsWriters_regWrite hacc _ _
    · exact .of_settings_eq hsame
  exact ⟨hset.ie, hset.taddr, hset.payload0, hset.payload1, hset.crcData, hset.crcExpect, hset.waitMs,
    hr.start_of_cmd_changes hreset, fun k => hr.writer_of_result_changes hreset⟩

/-! ### Completion -/

/-- A running command ends at a reset or at a completion, which leaves CMD, sets DONE, and on success delivers the
command's reply length (R43, R89). -/
theorem RecordStep.completion {s t : State} {e : Event} (h : RecordStep s e t) (hreset : e ≠ .reset)
    (hs : s.status.busy = true) (ht : t.status.busy = false) :
    (∃ k, outcomeOf s e = some k) ∧ t.cmd = s.cmd ∧ t.status.done = true
      ∧ (t.status.err = .none → t.status.resCount = s.snap.nreply) := by
  cases h with
  | fails k ioRd m hrun hout hk hio hmask hcmd hstatus =>
    exact ⟨⟨k, hout⟩, hcmd, by rw [hstatus], fun herr => absurd (by rwa [hstatus] at herr) hk⟩
  | succeeds hrun hout hcmd hstatus => exact ⟨⟨_, hout⟩, hcmd, by rw [hstatus], fun _ => by rw [hstatus]⟩
  | quiet _ hstatus => simp [hstatus, hs] at ht
  | acknowledges _ _ hstatus => simp [hstatus, Status.w1c, hs] at ht
  | overruns _ _ _ hstatus => simp [hstatus, Status.overrun, hs] at ht
  | starts _ _ hstart | rejects _ hstart => cases (startIndex_busy hs e).symm.trans hstart
  | resets => exact absurd rfl hreset

/-- Settles O37: the completing step leaves CMD and IE and sets DONE, and the invariant of the state after it gives the
rest. -/
theorem completionIsAtomicAndPrecise : Obligations.CompletionIsAtomicAndPrecise := by
  intro s t hinv h hs ht hreset
  have hinv' : Inv t := everyStepKeepsTheInvariant s t hinv h
  obtain ⟨⟨k, hout⟩, hcmd, hdone, hcount⟩ := (step_recordStep hinv h).completion hreset hs ht
  obtain ⟨hidle, hfree⟩ := hinv'.idle ht
  have hie : t.ie = s.ie := fire_ie_of_outcome (s := takeEvent s) h hout
  refine ⟨hcmd, hidle, hdone, by rw [irq, hie, hdone, Bool.and_true], hfree,
    fun herr => ⟨hinv'.record.done_ok_valid hdone herr, hcount herr⟩, fun herr => ?_⟩
  obtain ⟨hvalid, hzero⟩ := hinv'.status.err_noResult herr
  exact ⟨hvalid, hzero, fun k => hinv'.record.result_zero k (by rw [hzero]; exact Nat.zero_le k)⟩

/-! ### The record until the next start -/

/-- CMD, the results and the completion record are those of `s`, but for DONE and OVR, and BUSY = 0 (R43, R99). -/
structure SameRecord (s t : State) : Prop where
  cmd : t.cmd = s.cmd
  result : t.result = s.result
  err : t.status.err = s.status.err
  resValid : t.status.resValid = s.status.resValid
  resCount : t.status.resCount = s.status.resCount
  ioRd : t.status.ioRd = s.status.ioRd
  crcFail : t.status.crcFail = s.status.crcFail
  busy : t.status.busy = s.status.busy

theorem SameRecord.trans {s t u : State} (h : SameRecord s t) (h' : SameRecord t u) : SameRecord s u :=
  ⟨h'.cmd.trans h.cmd, h'.result.trans h.result, h'.err.trans h.err, h'.resValid.trans h.resValid,
    h'.resCount.trans h.resCount, h'.ioRd.trans h.ioRd, h'.crcFail.trans h.crcFail, h'.busy.trans h.busy⟩

/-- While BUSY = 0 only a CMD write or a reset changes the record. -/
theorem RecordStep.sameRecord {s t : State} {e : Event} (h : RecordStep s e t) (hinv : Inv s)
    (hb : s.status.busy = false) (hacc : accesses e .write .cmd = false) (hreset : e ≠ .reset) : SameRecord s t := by
  have hnostart (c : BitVec 4) : startIndex s e ≠ some c := fun hstart => by
    cases hacc.symm.trans (accepted_of_startIndex hstart).1
  cases h with
  | quiet hcmd hstatus hresult => constructor <;> simp only [hcmd, hstatus, hresult]
  | acknowledges _ hcmd hstatus hresult => constructor <;> simp only [hcmd, hstatus, hresult, Status.w1c]
  | overruns _ hbusy => cases hb.symm.trans hbusy
  | starts c _ hstart | rejects c hstart => exact absurd hstart (hnostart c)
  | fails _ _ _ hrun | succeeds hrun => exact absurd (hinv.idle hb).1 hrun
  | resets => exact absurd rfl hreset

/-- So over every run without a CMD write and a reset. -/
theorem runsTo_sameRecord {es : List Event} (hes : ∀ e ∈ es, accesses e .write .cmd = false ∧ e ≠ .reset) {s t : State}
    (hinv : Inv s) (hb : s.status.busy = false) (h : RunsTo s es t) : SameRecord s t := by
  induction es generalizing s with
  | nil =>
    obtain rfl := (runsTo_nil s t).mp h
    exact ⟨rfl, rfl, rfl, rfl, rfl, rfl, rfl, rfl⟩
  | cons e es ih =>
    obtain ⟨⟨hacc, hreset⟩, hrest⟩ := List.forall_mem_cons.mp hes
    obtain ⟨u, hu, hut⟩ := (runsTo_cons s t e es).mp h
    have hsu := (fire_recordStep hinv hu).sameRecord hinv hb hacc hreset
    exact hsu.trans (ih hrest (hinv.fire hu) (hsu.busy.trans hb) hut)

/-- Settles O40: by induction over the events, each of which leaves the record alone. -/
theorem resultsStayUntilTheNextStart : Obligations.ResultsStayUntilTheNextStart := by
  intro s t es hinv hidle hes h
  have hb : s.status.busy = false := by
    rw [← Bool.not_eq_true, hinv.status.busy_iff_phase]
    exact not_not.mpr hidle
  have hst := runsTo_sameRecord hes hinv hb h
  exact ⟨hst.cmd, congrFun hst.result, hst.err, hst.resValid, hst.resCount, hst.ioRd, hst.crcFail, hst.busy.trans hb⟩

end Sys2Proof.Machine
end

section
/-! Noninterference (10_state.md R28; 42_engine.md R81; 70_reset_and_hazards.md R117): a running command does not read
the registers it was started from, and an idle engine does not read its snapshot. -/

namespace Sys2Proof.Machine
open Sys2Proof.Claims

/-! ### A running command and its source registers -/

/-- `s` with the source registers and the environment of `u`. -/
def State.withSources (s u : State) : State :=
  { s with taddr := u.taddr, payload0 := u.payload0, payload1 := u.payload1, waitMs := u.waitMs, env := u.env }

/-- States that are the same but for the command sources are one state under two sets of sources. -/
theorem withSources_eq_iff {s t : State} : s.withSources t = t ↔ sameButCommandSources s t := by
  constructor
  · intro h
    rw [← h]
    exact ⟨⟨rfl, rfl, rfl, rfl, rfl, rfl, rfl, rfl, rfl, rfl⟩, rfl, rfl, rfl⟩
  · rintro ⟨⟨hcmd, hstatus, h0, h1, h2, hphase, hsnap, hcnt, hrx, hbus⟩, hie, hdata, hexpect⟩
    rw [State.withSources, hcmd, hstatus, h0, h1, h2, hphase, hsnap, hcnt, hrx, hbus, hie, hdata, hexpect]

/-- The answer to the BusWrite reads no source register (R84). -/
theorem writeResp_withSources (a : WriteAnswer) (s u : State) :
    writeResp a (s.withSources u) = (writeResp a s).withSources u := by
  cases a with
  | fail => rw [writeResp_fail, writeResp_fail]; rfl
  | ok =>
    by_cases hn : s.snap.nreply = 0
    · rw [writeResp_ok_writeOnly hn, writeResp_ok_writeOnly (s := s.withSources u) hn]; rfl
    · rw [writeResp_ok_read hn, writeResp_ok_read (s := s.withSources u) hn]; rfl

/-- The answer to the BusRead reads no source register (R86). -/
theorem readResp_withSources (a : ReadAnswer) (s u : State) :
    readResp a (s.withSources u) = (readResp a s).withSources u := by
  by_cases hgood : ∃ bs, a = .ok bs ∧ bs.length = rxLength s.snap
  · obtain ⟨bs, rfl, hlen⟩ := hgood
    rw [readResp_ok hlen, readResp_ok (s := s.withSources u) hlen]; rfl
  · have hbad : ∀ bs, a = .ok bs → bs.length ≠ rxLength s.snap := fun bs hbs hlen => hgood ⟨bs, hbs, hlen⟩
    rw [readResp_bad hbad, readResp_bad (s := s.withSources u) hbad]; rfl

/-- A tick in WAIT compares with the snapshot's wait, not with WAIT_MS (R85). -/
theorem waitTick_withSources (s u : State) : waitTick (s.withSources u) = (waitTick s).withSources u := by
  by_cases hlast : s.snap.wait.toNat + 1 ≤ (s.cnt + 1#17).toNat
  · rw [waitTick_last hlast, waitTick_last (s := s.withSources u) hlast]; rfl
  · have hmore := Nat.not_le.mp hlast
    rw [waitTick_more hmore, waitTick_more (s := s.withSources u) hmore]; rfl

/-- CHECK reads no source register (R87). -/
theorem checkStep_withSources (s u : State) : checkStep (s.withSources u) = (checkStep s).withSources u := by
  by_cases hmask : crcFailMask s.rx s.snap.nreply.val = 0#3
  · rw [checkStep_ok hmask, checkStep_ok (s := s.withSources u) hmask]; rfl
  · rw [checkStep_fail hmask, checkStep_fail (s := s.withSources u) hmask]; rfl

/-- While BUSY = 1 a register write reads no source register: one of CMD is an overrun (R83). -/
theorem regWrite_sameButCommandSources {s : State} (hb : s.status.busy = true) (r : Reg) (v : Word) (u : State) :
    sameButCommandSources (regWrite r v s) (regWrite r v (s.withSources u)) := by
  cases r with
  | cmd =>
    rw [regWrite, regWrite, commandWrite_busy hb, commandWrite_busy (s := s.withSources u) hb]
    exact withSources_eq_iff.mp rfl
  | _ => exact withSources_eq_iff.mp rfl

/-- A legal read at a register's offset takes the step of a RegRead (R31). -/
theorem fire_of_read {a : HostAccess} {r : Reg} (hk : a.kind = .read) (hw : a.width = 32) (ho : a.off = r.offset)
    (s : State) : fire (.host a) s = .next (readRegister r s) := by
  rw [fire, hostAccess_legal hw (ho ▸ Reg.ofOffset_offset r), hk]

/-- The sources of the two sides of a conditional step. -/
theorem ite_withSources {p : Prop} [Decidable p] (x y u : State) :
    (if p then x.withSources u else y.withSources u) = (if p then x else y).withSources u :=
  (apply_ite (State.withSources · u) p x y).symm

/-- Settles O41: every event but reset acts on the state without reading the sources. -/
theorem runningCommandIgnoresItsSourceRegisters : Obligations.RunningCommandIgnoresItsSourceRegisters := by
  intro s t s' e hb hsame hreset h
  obtain ⟨u, rfl⟩ : ∃ u, t = s.withSources u := ⟨t, (withSources_eq_iff.mpr hsame).symm⟩
  have hsources (x : State) : sameButCommandSources x (x.withSources u) := withSources_eq_iff.mp rfl
  have hf := fire_fires e s
  rw [h] at hf
  cases hf with
  | read a r hk hw ho => exact ⟨_, fire_of_read hk hw ho _, withSources_eq_iff.mp rfl⟩
  | write a r hk hw ho =>
    exact ⟨_, fire_of_accesses (accesses_self hk hw ho) _, regWrite_sameButCommandSources hb r a.data u⟩
  | writeAnswer a =>
    refine ⟨_, ?_, hsources _⟩
    rw [fire, writeResp_withSources]
    exact congrArg Host.Outcome.next (ite_withSources ..)
  | readAnswer a =>
    refine ⟨_, ?_, hsources _⟩
    rw [fire, readResp_withSources]
    exact congrArg Host.Outcome.next (ite_withSources ..)
  | tick =>
    refine ⟨_, ?_, hsources _⟩
    rw [fire, waitTick_withSources]
    exact congrArg Host.Outcome.next (ite_withSources ..)
  | internal =>
    refine ⟨_, ?_, hsources _⟩
    rw [fire, checkStep_withSources]
    exact congrArg Host.Outcome.next (ite_withSources ..)
  | reset => exact absurd rfl hreset

/-! ### An idle engine and its snapshot -/

/-- The two states agree outright once a command has started, and but for the snapshot while the engine is IDLE. -/
def AgreeWhereRead (s t : State) : Prop :=
  (s.phase = .idle ∧ sameButSnapshot s t) ∨ (s.phase ≠ .idle ∧ s = t)

/-- Two idle states that differ in the snapshot alone. -/
theorem agreeWhereRead_setSnap {s : State} (hp : s.phase = .idle) (sn : Snapshot) : AgreeWhereRead s (s.setSnap sn) :=
  .inl ⟨hp, rfl⟩

/-- A CMD write in IDLE takes a new snapshot, or reads none (R80, R82). -/
theorem commandWrite_setSnap {s : State} (hp : s.phase = .idle) (c : BitVec 4) (sn : Snapshot) :
    AgreeWhereRead (commandWrite c s) (commandWrite c (s.setSnap sn)) := by
  cases hb : s.status.busy with
  | true =>
    rw [commandWrite_busy hb, commandWrite_busy (s := s.setSnap sn) hb]
    exact .inl ⟨hp, rfl⟩
  | false =>
    have hb' : (s.setSnap sn).status.busy = false := hb
    rcases cmd_cases c with ⟨d, rfl⟩ | hc
    · rw [commandWrite_legal hb, commandWrite_legal hb']
      exact .inr ⟨nofun, rfl⟩
    · rw [commandWrite_illegal hb hc, commandWrite_illegal hb' hc]
      exact .inl ⟨rfl, rfl⟩

/-- A register write in IDLE reads no snapshot. -/
theorem regWrite_setSnap {s : State} (hp : s.phase = .idle) (r : Reg) (v : Word) (sn : Snapshot) :
    AgreeWhereRead (regWrite r v s) (regWrite r v (s.setSnap sn)) := by
  cases r with
  | cmd => exact commandWrite_setSnap hp _ sn
  | _ => exact .inl ⟨hp, rfl⟩

/-- In IDLE no event reads the snapshot (R28): the engine's own events do nothing there. -/
theorem fire_setSnap {s s' : State} {e : Event} (hp : s.phase = .idle) (sn : Snapshot) (h : fire e s = .next s') :
    ∃ t', fire e (s.setSnap sn) = .next t' ∧ AgreeWhereRead s' t' := by
  have hp' : (s.setSnap sn).phase = .idle := hp
  have hf := fire_fires e s
  rw [h] at hf
  cases hf with
  | read a r hk hw ho => exact ⟨_, fire_of_read hk hw ho _, .inl ⟨hp, by cases r <;> rfl⟩⟩
  | write a r hk hw ho => exact ⟨_, fire_of_accesses (accesses_self hk hw ho) _, regWrite_setSnap hp r a.data sn⟩
  | writeAnswer | readAnswer | tick | internal =>
    simp only [fire, hp, hp', reduceCtorEq, if_false]
    exact ⟨_, rfl, agreeWhereRead_setSnap hp sn⟩
  | reset => exact ⟨_, rfl, .inl ⟨rfl, rfl⟩⟩

/-- Settles O42: a fault depends on the next event alone, and in IDLE no event reads the snapshot. -/
theorem unspecifiedSnapshotIsNeverReadWhileIdle : Obligations.UnspecifiedSnapshotIsNeverReadWhileIdle := by
  intro s t hp hsame
  obtain ⟨sn, rfl⟩ : ∃ sn, t = s.setSnap sn := ⟨t.snap, hsame.symm⟩
  refine ⟨fun f => ?_, fun s' h => fire_setSnap (s := takeEvent s) hp sn h⟩
  rw [step_eq_fault_iff, step_eq_fault_iff, State.setSnap_env]

end Sys2Proof.Machine
end

section
/-! The settle gap of a safe host (70_reset_and_hazards.md R112) and a reset while BUSY (R109). -/

namespace Sys2Proof.Machine
open Sys2Proof.Claims

/-! ### A reset while BUSY -/

/-- Outside WRITE and READ an answer is never delivered (R109). -/
theorem step_late_answer {s : State} (hw : s.phase ≠ .write) (hr : s.phase ≠ .read) {e : Event} (he : isAnswer e) :
    step (s.place [e]) = .next s := by
  rcases he with ⟨a, rfl⟩ | ⟨a, rfl⟩
  · rw [step_place, place_nil, fire, if_neg hw]
  · rw [step_place, place_nil, fire, if_neg hr]

/-- Settles O45: the reset step leaves IDLE, where an answer is late. -/
theorem resetAbandonsTheCommand : Obligations.ResetAbandonsTheCommand :=
  fun s _ => ⟨resetStep s, rfl, rfl, rfl, rfl, rfl, fun _ he => step_late_answer (s := resetStep s) nofun nofun he⟩

/-! ### The settle gap -/

/-- A run has one end. -/
theorem runsTo_unique {s t u : State} {es : List Event} (ht : RunsTo s es t) (hu : RunsTo s es u) : t = u := by
  injection ht.symm.trans hu

/-- A pending gap holds off a CMD write for its target until its ticks have come (R112). -/
theorem gap_le_ticks {es : List Event} {e : Event} (he : accesses e .write .cmd = true) {q : List Gap} {g : Gap}
    (hg : g ∈ q) {s t : State} (hsafe : safeRun q (es ++ [e]) s) (ht : RunsTo s es t) (haddr : t.taddr = g.target) :
    g.ticks ≤ es.count .tick := by
  induction es generalizing q g s with
  | nil =>
    obtain rfl := (runsTo_nil s t).mp ht
    obtain ⟨⟨hcmd, -⟩, -⟩ := (safeRun_cons q e [] s).mp hsafe
    have hzero : g.ticks = 0 := (hcmd he).2 g hg haddr.symm
    omega
  | cons d es ih =>
    obtain ⟨-, -, u, hu, hrest⟩ := (safeRun_cons q d (es ++ [e]) s).mp hsafe
    obtain ⟨u', hu', hut⟩ := (runsTo_cons s t d es).mp ht
    obtain rfl : u = u' := by injection hu.symm.trans hu'
    have hmem := mem_gapsAfter hg d s u
    by_cases hd : d = .tick
    · subst hd
      rw [if_pos rfl] at hmem
      have hcount : g.ticks - 1 ≤ es.count .tick := ih hmem hrest hut haddr
      rw [List.count_cons_self]
      omega
    · rw [if_neg hd] at hmem
      rw [List.count_cons_of_ne hd]
      exact ih hmem hrest hut haddr

/-- From the completion of a write-only command on, its target is left alone for `s.wait + 1` ticks (R85, R112). -/
theorem wait_lt_ticks {q : List Gap} {s t : State} {es : List Event} {e : Event} (hb : s.status.busy = true)
    (hp : s.phase = .write) (hn : s.snap.nreply = 0) (hsafe : safeRun q (.busWriteAnswer .ok :: (es ++ [e])) s)
    (ht : RunsTo s (.busWriteAnswer .ok :: es) t) (he : accesses e .write .cmd = true)
    (haddr : t.taddr = s.snap.taddr) : s.snap.wait.toNat + 1 ≤ es.count .tick := by
  obtain ⟨-, -, u, hu, hrest⟩ := (safeRun_cons ..).mp hsafe
  cases (fire_writeAnswer hp .ok).symm.trans hu
  have hrun := (runsTo_cons_of_fire (fire_writeAnswer hp .ok)).mp ht
  exact gap_le_ticks he (gapOpened_mem q hb hn) hrest hrun haddr

/-- In WRITE the command keeps its snapshot over every run without an answer and a reset (R81). -/
theorem runsTo_in_write {es : List Event} (hes : ∀ e ∈ es, (∀ w, e ≠ .busWriteAnswer w) ∧ e ≠ .reset) {s t : State}
    (hb : s.status.busy = true) (hp : s.phase = .write) (h : RunsTo s es t) :
    t.status.busy = true ∧ t.phase = .write ∧ t.snap = s.snap := by
  induction es generalizing s with
  | nil =>
    obtain rfl := (runsTo_nil s t).mp h
    exact ⟨hb, hp, rfl⟩
  | cons e es ih =>
    obtain ⟨⟨hans, hreset⟩, hrest⟩ := List.forall_mem_cons.mp hes
    obtain ⟨u, hu, hut⟩ := (runsTo_cons s t e es).mp h
    obtain ⟨hbu, hpu, hsnapu⟩ := fire_in_write hb hp hans hreset hu
    obtain ⟨hbt, hpt, hsnapt⟩ := ih hrest hbu hpu hut
    exact ⟨hbt, hpt, hsnapt.trans hsnapu⟩

/-- Settles O49: the completion opens the gap of the snapshot's wait, and the snapshot is that of the CMD write. -/
theorem safeRunKeepsTheSettleGap : Obligations.SafeRunKeepsTheSettleGap := by
  refine ⟨fun q s t es e hb hp hn hsafe ht he haddr => ?_,
    fun q s t p before es e hb hp hbefore hsafe ht he haddr => ?_⟩
  · exact wait_lt_ticks hb hp hn (by simpa using hsafe) ht he haddr
  · obtain ⟨hinstr, hdesc⟩ := writeOnlyCommands_spec hp
    rw [hinstr] at hsafe ht
    simp only [List.append_assoc, List.cons_append, List.nil_append] at hsafe ht
    obtain ⟨-, -, u, hu, hsafe⟩ := (safeRun_cons ..).mp hsafe
    cases (fire_commandOf _ s).symm.trans hu
    rw [runsTo_cons_of_fire (fire_commandOf _ s), runsTo_append] at ht
    obtain ⟨v', hv', ht⟩ := ht
    obtain ⟨q', v, hv, hsafe⟩ := safeRun_append hsafe
    obtain rfl := runsTo_unique hv hv'
    rw [commandWrite_legal hb, takeSnapshot_of_descriptor hdesc] at hv
    obtain ⟨hbv, hpv, hsnap⟩ := runsTo_in_write hbefore rfl rfl hv
    have hwait := wait_lt_ticks hbv hpv (by rw [hsnap]; rfl) hsafe ht he (by rw [hsnap]; exact haddr)
    rwa [hsnap] at hwait

end Sys2Proof.Machine
end

section
/-! The tick source and CHECK's step (60_exceptions.md R103; 42_engine.md R85, R91): both come for ever, so WAIT and
CHECK end, and without ticks WAIT lasts. -/

namespace Sys2Proof.Machine
open Sys2Proof.Claims

/-! ### The events of the free environment -/

/-- A free round begins with its burst (log entry 4). -/
theorem eventAt_round (k : Nat) (rd : Option Word) (n : Nat) :
    (⟨[], k, rd⟩ : Env).eventAt n =
      (⟨Config.freeBurst k ++ [closingEvent k], k + 1, rd⟩ : Env).eventAt n := by
  cases hburst : Config.freeBurst k with
  | nil => cases n <;> simp [nextEvent, Env.advance, hburst]
  | cons e rest => cases n <;> simp [nextEvent, Env.advance, hburst]

/-- The placed events come in their order. -/
theorem eventAt_placed (es : List Event) (e : Event) (k : Nat) (rd : Option Word) :
    (⟨es ++ [e], k, rd⟩ : Env).eventAt es.length = e := by
  induction es with
  | nil => rfl
  | cons d es ih => exact ih

/-- The event that closes a round comes after its burst (log entry 19). -/
theorem eventAt_closing (k : Nat) (rd : Option Word) :
    (⟨[], k, rd⟩ : Env).eventAt (Config.freeBurst k).length = closingEvent k := by
  rw [eventAt_round, eventAt_placed]

/-- After a round comes the next one. -/
theorem eventAt_next_round (k : Nat) (rd : Option Word) (n : Nat) :
    (⟨[], k, rd⟩ : Env).eventAt ((Config.freeBurst k).length + 1 + n) = (⟨[], k + 1, rd⟩ : Env).eventAt n := by
  rw [eventAt_round]
  have hlen : (Config.freeBurst k).length + 1 = (Config.freeBurst k ++ [closingEvent k]).length := by simp
  rw [hlen, Env.eventAt_inputs]

/-- Round `k + j` begins after at least `j` events of round `k` and those between. -/
theorem exists_round (k : Nat) (rd : Option Word) (j : Nat) :
    ∃ m, j ≤ m ∧ ∀ n, (⟨[], k, rd⟩ : Env).eventAt (m + n) = (⟨[], k + j, rd⟩ : Env).eventAt n := by
  induction j with
  | zero => exact ⟨0, le_rfl, fun n => by rw [Nat.zero_add, Nat.add_zero]⟩
  | succ j ih =>
    obtain ⟨m, hm, hround⟩ := ih
    refine ⟨m + ((Config.freeBurst (k + j)).length + 1), by omega, fun n => ?_⟩
    rw [Nat.add_assoc, hround, eventAt_next_round, Nat.add_assoc]

/-- The closing events of the rounds `k` with `k % 2 = b` come for ever. -/
theorem exists_closing (env : Env) (n b : Nat) (hb : b < 2) :
    ∃ m k, n ≤ m ∧ k % 2 = b ∧ env.eventAt m = closingEvent k := by
  obtain ⟨es, k, rd⟩ := env
  obtain ⟨j, hj, hparity⟩ : ∃ j, n ≤ j ∧ (k + j) % 2 = b := by
    rcases Nat.mod_two_eq_zero_or_one (k + n + b) with h | h
    · exact ⟨n, le_rfl, by omega⟩
    · exact ⟨n + 1, by omega, by omega⟩
  obtain ⟨m, hm, hround⟩ := exists_round k rd j
  refine ⟨es.length + (m + (Config.freeBurst (k + j)).length), k + j, by omega, hparity, ?_⟩
  rw [Env.eventAt_inputs, hround, eventAt_closing]

/-- Ticks come for ever (R103). -/
theorem exists_tick (env : Env) (n : Nat) : ∃ m, n ≤ m ∧ env.eventAt m = .tick := by
  obtain ⟨m, k, hm, hk, he⟩ := exists_closing env n 0 (by decide)
  exact ⟨m, hm, by rw [he, closingEvent, if_pos hk]⟩

/-- CHECK's step comes for ever (R91). -/
theorem exists_internal (env : Env) (n : Nat) : ∃ m, n ≤ m ∧ env.eventAt m = .internal := by
  obtain ⟨m, k, hm, hk, he⟩ := exists_closing env n 1 (by decide)
  exact ⟨m, hm, by rw [he, closingEvent, if_neg (by omega)]⟩

/-! ### The entry to WAIT -/

/-- A register write does not lead to WAIT. -/
theorem regWrite_phase_ne_wait {s : State} (hp : s.phase ≠ .wait) (r : Reg) (v : Word) :
    (regWrite r v s).phase ≠ .wait := by
  cases r with
  | cmd =>
    rw [regWrite]
    cases hb : s.status.busy with
    | true => rw [commandWrite_busy hb]; exact hp
    | false =>
      rcases cmd_cases (cmdField v) with ⟨c, hc⟩ | hc
      · rw [hc, commandWrite_legal hb]; nofun
      · rw [commandWrite_illegal hb hc]; nofun
  | _ => exact hp

/-- The answer to the BusWrite that leads to WAIT starts the count at 0 (R84). -/
theorem writeResp_enters_wait {a : WriteAnswer} {s : State} (h : (writeResp a s).phase = .wait) :
    (writeResp a s).cnt = 0#17 := by
  cases a with
  | fail => rw [writeResp_fail] at h; cases h
  | ok =>
    by_cases hn : s.snap.nreply = 0
    · rw [writeResp_ok_writeOnly hn] at h; cases h
    · rw [writeResp_ok_read hn]

/-- The answer to the BusRead does not lead to WAIT (R86). -/
theorem readResp_phase_ne_wait (a : ReadAnswer) (s : State) : (readResp a s).phase ≠ .wait := by
  by_cases hgood : ∃ bs, a = .ok bs ∧ bs.length = rxLength s.snap
  · obtain ⟨bs, rfl, hlen⟩ := hgood
    rw [readResp_ok hlen]; nofun
  · rw [readResp_bad fun bs hbs hlen => hgood ⟨bs, hbs, hlen⟩]; nofun

/-- CHECK ends in IDLE with DONE = 1 (R87, R89). -/
theorem checkStep_completes (s : State) : (checkStep s).phase = .idle ∧ (checkStep s).status.done = true := by
  by_cases hmask : crcFailMask s.rx s.snap.nreply.val = 0#3
  · rw [checkStep_ok hmask]; exact ⟨rfl, rfl⟩
  · rw [checkStep_fail hmask]; exact ⟨rfl, rfl⟩

/-- Every entry to WAIT starts the count at 0: it is the answer to the BusWrite (R84). -/
theorem fire_enters_wait {s t : State} {e : Event} (h : fire e s = .next t) (hs : s.phase ≠ .wait)
    (ht : t.phase = .wait) : t.cnt = 0#17 := by
  have hf := fire_fires e s
  rw [h] at hf
  cases hf with
  | read => exact absurd ht hs
  | write a r => exact absurd ht (regWrite_phase_ne_wait hs r a.data)
  | writeAnswer a =>
    by_cases hp : s.phase = .write
    · rw [if_pos hp] at ht ⊢
      exact writeResp_enters_wait ht
    · rw [if_neg hp] at ht
      exact absurd ht hs
  | readAnswer a =>
    split at ht
    · exact absurd ht (readResp_phase_ne_wait a s)
    · exact absurd ht hs
  | tick =>
    rw [if_neg hs] at ht
    exact absurd ht hs
  | internal =>
    split at ht
    · cases (checkStep_completes s).1.symm.trans ht
    · exact absurd ht hs
  | reset => cases ht

/-- Settles O50: the rounds of the free environment close with ticks and CHECK steps in turn, and the entry to WAIT is
the answer to the BusWrite. -/
theorem tickSourceRunsForEver : Obligations.TickSourceRunsForEver :=
  ⟨Nat.le_add_right _ _, fun env n => ⟨exists_tick env n, exists_internal env n⟩, fun _ => step_tick_outside_wait,
    fun s _ h => fire_enters_wait (s := takeEvent s) h, fun _ _ r => by cases r <;> rfl⟩

/-! ### A fair environment ends WAIT and CHECK -/

/-- From `s` some number of steps leads to `P`, unless a reset or a HostBusError comes first. -/
def Reaches (P : State → Prop) (s : State) : Prop :=
  ∃ k, (∃ f, Host.Core.run Sys2Proof.core k s = .fault f)
    ∨ ∃ t : State, Host.Core.run Sys2Proof.core k s = .next t ∧ (P t ∨ ∃ j < k, s.env.eventAt j = .reset)

/-- A run takes its first step and goes on from there. -/
theorem run_of_step_next {s t : State} (h : step s = .next t) (k : Nat) :
    Host.Core.run Sys2Proof.core (k + 1) s = Host.Core.run Sys2Proof.core k t := by
  have hstep : Sys2Proof.core.step s = .next t := h
  refine (run_succ Sys2Proof.core k s).trans ?_
  rw [hstep]

/-- A run stops at a fault. -/
theorem run_of_step_fault {s : State} {f : Fault} (h : step s = .fault f) :
    Host.Core.run Sys2Proof.core 1 s = .fault f := by
  have hstep : Sys2Proof.core.step s = .fault f := h
  refine (run_succ Sys2Proof.core 0 s).trans ?_
  rw [hstep]

theorem Reaches.here {P : State → Prop} {s : State} (h : P s) : Reaches P s := ⟨0, .inr ⟨s, rfl, .inl h⟩⟩

/-- What is reached after a step is reached before it. -/
theorem Reaches.after_step {P : State → Prop} {s t : State} (hs : step s = .next t) (h : Reaches P t) :
    Reaches P s := by
  obtain ⟨k, ⟨f, hf⟩ | ⟨u, hu, hP⟩⟩ := h
  · exact ⟨k + 1, .inl ⟨f, (run_of_step_next hs k).trans hf⟩⟩
  · refine ⟨k + 1, .inr ⟨u, (run_of_step_next hs k).trans hu, hP.imp_right ?_⟩⟩
    rintro ⟨j, hj, he⟩
    exact ⟨j + 1, by omega, (step_eventAt hs j).symm.trans he⟩

/-- It is enough to reach `P` after a step that is no reset: a fault or a reset ends the matter. -/
theorem Reaches.of_step {P : State → Prop} {s : State}
    (h : ∀ t, step s = .next t → nextEvent s.env ≠ .reset → Reaches P t) : Reaches P s := by
  cases hs : step s with
  | fault f => exact ⟨1, .inl ⟨f, run_of_step_fault hs⟩⟩
  | refused r => exact absurd hs (step_ne_refused s r)
  | next t =>
    by_cases hreset : nextEvent s.env = .reset
    · exact ⟨1, .inr ⟨t, run_of_step_next hs 0, .inr ⟨0, by decide, hreset⟩⟩⟩
    · exact .after_step hs (h t hs hreset)

/-- If `I` lasts until the event `e`, which then leads to `P`, and `e` comes in every environment, `P` is reached. -/
theorem Reaches.of_fair {P I : State → Prop} {e : Event} (hfair : ∀ env : Env, ∃ m, env.eventAt m = e)
    (hlasts : ∀ s t, I s → step s = .next t → nextEvent s.env ≠ .reset → nextEvent s.env ≠ e → I t)
    (hleads : ∀ s t, I s → step s = .next t → nextEvent s.env = e → Reaches P t) {s : State} (hs : I s) :
    Reaches P s := by
  obtain ⟨m, hm⟩ := hfair s.env
  induction m generalizing s with
  | zero => exact .of_step fun t ht _ => hleads s t hs ht hm
  | succ m ih =>
    refine .of_step fun t ht hreset => ?_
    by_cases he : nextEvent s.env = e
    · exact hleads s t hs ht he
    · exact ih (hlasts s t hs ht hreset he) ((step_eventAt ht m).trans hm)

/-- The engine of `t` is in the same phase of the same command as that of `s`, with the same count and transaction. -/
structure SamePhase (s t : State) : Prop where
  busy : t.status.busy = s.status.busy
  phase : t.phase = s.phase
  bus : t.bus = s.bus
  cmd : t.cmd = s.cmd
  snap : t.snap = s.snap
  cnt : t.cnt = s.cnt

theorem SamePhase.refl (s : State) : SamePhase s s := ⟨rfl, rfl, rfl, rfl, rfl, rfl⟩

theorem SamePhase.trans {s t u : State} (h : SamePhase s t) (h' : SamePhase t u) : SamePhase s u :=
  ⟨h'.busy.trans h.busy, h'.phase.trans h.phase, h'.bus.trans h.bus, h'.cmd.trans h.cmd, h'.snap.trans h.snap,
    h'.cnt.trans h.cnt⟩

/-- No register write moves a running command (R83). -/
theorem samePhase_regWrite {s : State} (hb : s.status.busy = true) (r : Reg) (v : Word) :
    SamePhase s (regWrite r v s) := by
  cases r with
  | cmd =>
    rw [regWrite, commandWrite_busy hb]
    exact ⟨rfl, rfl, rfl, rfl, rfl, rfl⟩
  | _ => exact ⟨rfl, rfl, rfl, rfl, rfl, rfl⟩

/-- In WAIT only a tick or a reset moves a running command, and in CHECK only its own step or a reset (R79). -/
theorem fire_samePhase {s t : State} {e : Event} (hb : s.status.busy = true)
    (hp : (s.phase = .wait ∧ e ≠ .tick) ∨ (s.phase = .check ∧ e ≠ .internal)) (hreset : e ≠ .reset)
    (h : fire e s = .next t) : SamePhase s t := by
  have hwrite : s.phase ≠ .write := by rcases hp with ⟨hp, -⟩ | ⟨hp, -⟩ <;> simp [hp]
  have hread : s.phase ≠ .read := by rcases hp with ⟨hp, -⟩ | ⟨hp, -⟩ <;> simp [hp]
  have hf := fire_fires e s
  rw [h] at hf
  cases hf with
  | read => exact ⟨rfl, rfl, rfl, rfl, rfl, rfl⟩
  | write a r => exact samePhase_regWrite hb r a.data
  | writeAnswer => rw [if_neg hwrite]; exact .refl s
  | readAnswer => rw [if_neg hread]; exact .refl s
  | tick =>
    rcases hp with ⟨-, hne⟩ | ⟨hp, -⟩
    · exact absurd rfl hne
    · rw [if_neg (by simp [hp])]; exact .refl s
  | internal =>
    rcases hp with ⟨hp, -⟩ | ⟨-, hne⟩
    · rw [if_neg (by simp [hp])]; exact .refl s
    · exact absurd rfl hne
  | reset => exact absurd rfl hreset

/-- CHECK lasts until its own step, which completes the command. -/
theorem reaches_completion {s : State} (hinv : Inv s) (hp : s.phase = .check) :
    Reaches (fun t => t.phase = .idle ∧ t.status.done = true) s := by
  refine Reaches.of_fair (I := fun s => Inv s ∧ s.phase = .check) (e := .internal)
    (fun env => (exists_internal env 0).imp fun _ h => h.2) (fun s t ⟨hs, hp⟩ h hreset he => ?_)
    (fun s t ⟨_, hp⟩ h he => ?_) ⟨hinv, hp⟩
  · have hb : s.status.busy = true := hs.status.busy_iff_phase.mpr (by simp [hp])
    have hsame : SamePhase (takeEvent s) t := fire_samePhase hb (.inr ⟨hp, he⟩) hreset h
    exact ⟨everyStepKeepsTheInvariant s t hs h, hsame.phase.trans hp⟩
  · rw [step, he, fire_internal (s := takeEvent s) hp] at h
    cases h
    exact .here (checkStep_completes _)

/-- A state of the invariant in WAIT with `d` ticks to count before the one that ends it (R85). -/
structure WaitsFor (d : Nat) (s : State) : Prop where
  inv : Inv s
  phase : s.phase = .wait
  remaining : s.cnt.toNat + d = s.snap.wait.toNat

/-- Between ticks the remaining wait stays what it is. -/
theorem WaitsFor.lasts {d : Nat} {s t : State} (hs : WaitsFor d s) (h : step s = .next t)
    (hreset : nextEvent s.env ≠ .reset) (he : nextEvent s.env ≠ .tick) : WaitsFor d t := by
  have hb : s.status.busy = true := hs.inv.status.busy_iff_phase.mpr (by simp [hs.phase])
  have hsame : SamePhase (takeEvent s) t := fire_samePhase hb (.inl ⟨hs.phase, he⟩) hreset h
  refine ⟨everyStepKeepsTheInvariant s t hs.inv h, hsame.phase.trans hs.phase, ?_⟩
  rw [hsame.cnt, hsame.snap]
  exact hs.remaining

/-- The tick of a wait that has run out leads to READ (R85). -/
theorem WaitsFor.tick_zero {s t : State} (hs : WaitsFor 0 s) (h : step s = .next t)
    (he : nextEvent s.env = .tick) : t.phase = .read := by
  have hsucc := hs.inv.wait_cnt_succ hs.phase
  have hremaining := hs.remaining
  rw [step, he, fire_tick (s := takeEvent s) hs.phase,
    waitTick_last (s := takeEvent s) (show s.snap.wait.toNat + 1 ≤ (s.cnt + 1#17).toNat by omega)] at h
  cases h
  rfl

/-- Any tick before counts (R85). -/
theorem WaitsFor.tick_succ {d : Nat} {s t : State} (hs : WaitsFor (d + 1) s) (h : step s = .next t)
    (he : nextEvent s.env = .tick) : WaitsFor d t := by
  have hsucc := hs.inv.wait_cnt_succ hs.phase
  have hremaining := hs.remaining
  have hinv := everyStepKeepsTheInvariant s t hs.inv h
  rw [step, he, fire_tick (s := takeEvent s) hs.phase,
    waitTick_more (s := takeEvent s) (show (s.cnt + 1#17).toNat < s.snap.wait.toNat + 1 by omega)] at h
  cases h
  exact ⟨hinv, hs.phase, show (s.cnt + 1#17).toNat + d = s.snap.wait.toNat by omega⟩

/-- WAIT ends, by induction over the ticks it has to count. -/
theorem WaitsFor.reaches_read {d : Nat} {s : State} (hs : WaitsFor d s) : Reaches (·.phase = .read) s := by
  have hfair (env : Env) : ∃ m, env.eventAt m = .tick := (exists_tick env 0).imp fun _ h => h.2
  induction d generalizing s with
  | zero => exact .of_fair hfair (fun _ _ => WaitsFor.lasts) (fun _ _ hs h he => .here (hs.tick_zero h he)) hs
  | succ d ih => exact .of_fair hfair (fun _ _ => WaitsFor.lasts) (fun _ _ hs h he => ih (hs.tick_succ h he)) hs

/-- Settles O51: the invariant bounds the ticks WAIT has to count, and CHECK has its own step. -/
theorem fairEnvironmentEndsWaitAndCheck : Obligations.FairEnvironmentEndsWaitAndCheck := by
  refine fun s hinv => ⟨fun hp => ?_, reaches_completion hinv⟩
  have hcnt := hinv.reply.wait_cnt hp
  exact WaitsFor.reaches_read ⟨hinv, hp, Nat.add_sub_cancel' hcnt⟩

/-! ### WAIT without ticks -/

/-- An event that is no illegal host access leads to a next state (R32). -/
theorem fire_legal {e : Event} (he : legalEvent e) (s : State) : ∃ t, fire e s = .next t := by
  have hf := fire_fires e s
  generalize fire e s = o at hf ⊢
  cases hf with
  | badAccess a hbad => exact absurd (he a rfl) (by simp [hbad])
  | read | write | writeAnswer | readAnswer | tick | internal | reset => exact ⟨_, rfl⟩

/-- Without a tick and a reset a command in WAIT stays where it is (R79). -/
theorem runsTo_wait_without_ticks {es : List Event} (hes : ∀ e ∈ es, legalEvent e ∧ e ≠ .tick ∧ e ≠ .reset) {s : State}
    (hb : s.status.busy = true) (hp : s.phase = .wait) : ∃ t, RunsTo s es t ∧ SamePhase s t := by
  induction es generalizing s with
  | nil => exact ⟨s, (runsTo_nil s s).mpr rfl, .refl s⟩
  | cons e es ih =>
    obtain ⟨⟨hlegal, htick, hreset⟩, hrest⟩ := List.forall_mem_cons.mp hes
    obtain ⟨u, hu⟩ := fire_legal hlegal s
    have hsu := fire_samePhase hb (.inl ⟨hp, htick⟩) hreset hu
    obtain ⟨t, ht, hut⟩ := ih hrest (hsu.busy.trans hb) (hsu.phase.trans hp)
    exact ⟨t, (runsTo_cons_of_fire hu).mpr ht, hsu.trans hut⟩

/-- Settles O52: by induction over the events, none of which moves the command. -/
theorem waitWithoutTicksLasts : Obligations.WaitWithoutTicksLasts := by
  intro s es hb hp hes
  obtain ⟨t, ht, hst⟩ := runsTo_wait_without_ticks hes hb hp
  exact ⟨t, ht, hst.busy.trans hb, hst.phase.trans hp, hst.cnt, hst.snap, hst.cmd, hst.bus⟩

end Sys2Proof.Machine
end
